-- ==== Sys2Proof/Word.lean ====
section
/-! DEFINITION. The words of the part and the numbers its records are named by: bytes of the host link, texts, and the
numbers of points, groups, lines, keys, output lines and tiles, and the lines of the lamp chain. -/

namespace Sys2Proof

/-- One byte of the host link or of a text (R160, R179). -/
abbrev Byte := BitVec 8

/-- A text: 7-bit printable codes, one byte each (00_scope, Text). -/
abbrev Text := List Byte

/-- A user point, 0 to 127 (R1). -/
abbrev UserPt := Fin 128

/-- Any point, 0 to 129, the two system points included (R3). -/
abbrev Pt := Fin 130

/-- A group, 0 to 15 (R4). -/
abbrev GroupNo := Fin 16

/-- A field line, 0 to 31 (R86). -/
abbrev LineNo := Fin 32

/-- A key, 0 to 5, numbered as R105 does. -/
abbrev KeyNo := Fin 6

/-- An output line, 0 to 3 (R128). -/
abbrev OutNo := Fin 4

/-- A lamp tile, 0 to 47 (R136). -/
abbrev TileNo := Fin 48

/-- The point that is HOST SILENT (R3). -/
abbrev hostSilent : Pt := 128

/-- The point that is PANEL OVERFLOW (R3). -/
abbrev panelOverflow : Pt := 129

/-- The lines of the lamp chain (R137): LDAT, LCLK and LLAT of 11.9. -/
inductive ChainLine
  | data
  | clock
  | latch
  deriving DecidableEq, Repr

/-- A moment at which the lamp chain is looked at (R137): one of the 48 shift clocks of a refresh, its latch pulse, or any
other. -/
inductive ChainMoment
  | shift (clock : Fin 48)
  | latchPulse
  | other
  deriving DecidableEq, Repr

/-- A user point as one of the 130 points. -/
abbrev UserPt.pt (u : UserPt) : Pt := ⟨u.val, by omega⟩

end Sys2Proof
end

