-- ==== Sys2Proof/Config.lean ====
section
/-! DEFINITION. What is fixed in the part: its identity, its fixed texts, its capacities, and what the spec does not
give of it: the dot patterns of the character generator, which are outside its scope, and the levels of the lamp chain lines
and of MISO where no rule states one. -/

namespace Sys2Proof.Config

/-- The dot patterns of the character generator: code, dot column 0 to 4 of the cell, dot row 0 to 6 of the cell.
R139 leaves them outside the scope of the spec (log 11), so nothing fixes them here. -/
opaque glyph : Byte → Nat → Nat → Bool

/-- The level of a lamp chain line, true for high, where R137 states none: the clock and the latch line outside reset, and the
data line outside the shift clocks of a refresh. A free value (log 25), for each line, moment and refresh. -/
opaque chainLevel : ChainLine → ChainMoment → Option (Vector Bool 48) → Bool

/-- What MISO carries, none for high impedance, where R156 and R202 state nothing: CSN low out of reset with no transaction
taken, its fall not inside the hold of a SOFT_RESET (log 28), after a number of falling edges of SCK. A free value. -/
opaque misoUntaken : Nat → Option Bool

/-- R184: the vendor code of IDENTIFY. -/
def vendorCode : Nat := 0x3A71

/-- R184: the part code of IDENTIFY. -/
def partCode : Nat := 0x0A48

/-- R184: the revision of IDENTIFY. -/
def revision : Nat := 1

/-- R57: how many user records the Notice Table holds. -/
def userRecords : Nat := 48

/-- R70: how many entries the Shelf List holds. -/
def shelfEntries : Nat := 16

/-- R160: the longest payload of a frame. -/
def maxPayload : Nat := 40

/-- The space character (0x20), which pads every text. -/
def space : Byte := 0x20

/-- "HOST SILENT" (R3). -/
def hostSilentLabel : Text := [0x48, 0x4F, 0x53, 0x54, 0x20, 0x53, 0x49, 0x4C, 0x45, 0x4E, 0x54]

/-- "PANEL OVERFLOW" (R3). -/
def panelOverflowLabel : Text :=
  [0x50, 0x41, 0x4E, 0x45, 0x4C, 0x20, 0x4F, 0x56, 0x45, 0x52, 0x46, 0x4C, 0x4F, 0x57]

/-- "POINT ", which opens the substitute for an empty label (R1). -/
def pointWord : Text := [0x50, 0x4F, 0x49, 0x4E, 0x54, 0x20]

/-- "OUT OF SERVICE" (R151). -/
def outOfService : Text :=
  [0x4F, 0x55, 0x54, 0x20, 0x4F, 0x46, 0x20, 0x53, 0x45, 0x52, 0x56, 0x49, 0x43, 0x45]

end Sys2Proof.Config
end

