-- ==== Sys2Proof/Syntax.lean ====
section
/-! DEFINITION. The commands of the part: one constructor of `Instr` for each row of spec/opcode_table.json, in its order. -/

namespace Sys2Proof

/-- What an input pin of a field line or key carries at a sample (R208): below 0.3 VDD, above 0.7 VDD, or between. -/
inductive PinLevel
  | low
  | mid
  | high
  deriving DecidableEq, Repr

/-- The steps of the part, each whole and indivisible (95_what_each_step_holds).
The 32 requests and UNKNOWN_KIND are the runs of taken requests at the blocks (R165); they carry the payload bytes of their
frame as R182 lays them out, so that every length and every value the host can send is a command. -/
inductive Instr
  | identify (payload : List Byte)
  | status (payload : List Byte)
  | writePoint (payload : List Byte)
  | readPoint (payload : List Byte)
  | writeGroup (payload : List Byte)
  | readGroup (payload : List Byte)
  | writeLine (payload : List Byte)
  | readLine (payload : List Byte)
  | writePanel (payload : List Byte)
  | readPanel (payload : List Byte)
  | writeOutput (payload : List Byte)
  | setOutput (payload : List Byte)
  | keyLock (payload : List Byte)
  | setMessage (payload : List Byte)
  | lampTest (payload : List Byte)
  | raise (payload : List Byte)
  | clear (payload : List Byte)
  | acknowledge (payload : List Byte)
  | reset (payload : List Byte)
  | silence (payload : List Byte)
  | retire (payload : List Byte)
  | shelve (payload : List Byte)
  | unshelve (payload : List Byte)
  | lookup (payload : List Byte)
  | list (payload : List Byte)
  | pending (payload : List Byte)
  | shelf (payload : List Byte)
  | readEvents (payload : List Byte)
  | clearEvents (payload : List Byte)
  | eventEnable (payload : List Byte)
  | start (payload : List Byte)
  | stop (payload : List Byte)
  /-- The run of a taken request whose kind code Chapter 10 does not give (R165, R180). -/
  | unknownKind (kind : Byte) (payload : List Byte)
  | csnFall
  /-- The CSN rise, with the levels that MOSI had at the rising edges of SCK in the transaction, in their order, true for high, and
  with those it had at rising edges while CSN was high before, which the part ignores (R156). -/
  | transactionEnd (mosi stray : List Bool)
  | replyPlacement
  | supervisionExpiry
  /-- A sample of a field line, with what its pin carries (R90, R208). -/
  | lineRawChange (line : LineNo) (pin : PinLevel)
  | lineQualifyExpiry (line : LineNo)
  | chatterWindowExpiry (line : LineNo)
  | chatterRelease (line : LineNo)
  | shelfEntryExpiry (point : UserPt)
  | realertExpiry (point : Pt)
  /-- A sample of a key line, with what its pin carries (R105, R208). -/
  | keyRawChange (key : KeyNo) (pin : PinLevel)
  | keyDebounceExpiry (key : KeyNo)
  | keyRepeatExpiry (key : KeyNo)
  | lampTestExpiry
  | stepBoundary
  | refreshLatch
  | chirpBurstEnd
  | secondsTick
  | scrollHoldExpiry
  | compositionComplete
  | frameBoundary
  | powerOn
  | supplyFall
  | resetnFall
  | resetnRise
  | resetExit
  | oscillatorStop
  | oscillatorRestart
  deriving DecidableEq, Repr

/-- The kind codes that Chapter 10 gives a request (R184 to R198). -/
def knownKinds : List Byte :=
  [0x01, 0x02, 0x10, 0x11, 0x12, 0x13, 0x14, 0x15, 0x16, 0x17, 0x18, 0x20, 0x21, 0x22, 0x23, 0x24, 0x25, 0x26, 0x27, 0x28,
   0x29, 0x2A, 0x2B, 0x30, 0x31, 0x32, 0x33, 0x34, 0x35, 0x36, 0x3E, 0x3F]

/-- SOFT_RESET's kind code, which the Link takes itself (R164). -/
def softResetKind : Byte := 0x7F

/-- The payload of a request row, and none for a row that is no request. -/
def Instr.payload? : Instr → Option (List Byte)
  | .identify p | .status p | .writePoint p | .readPoint p | .writeGroup p | .readGroup p | .writeLine p | .readLine p
  | .writePanel p | .readPanel p | .writeOutput p | .setOutput p | .keyLock p | .setMessage p | .lampTest p | .raise p
  | .clear p | .acknowledge p | .reset p | .silence p | .retire p | .shelve p | .unshelve p | .lookup p | .list p
  | .pending p | .shelf p | .readEvents p | .clearEvents p | .eventEnable p | .start p | .stop p | .unknownKind _ p => some p
  | .csnFall | .transactionEnd _ _ | .replyPlacement | .supervisionExpiry | .lineRawChange _ _ | .lineQualifyExpiry _
  | .chatterWindowExpiry _ | .chatterRelease _ | .shelfEntryExpiry _ | .realertExpiry _ | .keyRawChange _ _
  | .keyDebounceExpiry _ | .keyRepeatExpiry _ | .lampTestExpiry | .stepBoundary | .refreshLatch | .chirpBurstEnd
  | .secondsTick | .scrollHoldExpiry | .compositionComplete | .frameBoundary | .powerOn | .supplyFall | .resetnFall
  | .resetnRise | .resetExit | .oscillatorStop | .oscillatorRestart => none

end Sys2Proof
end

