-- ==== Sys2Proof/WellFormed.lean ====
section
/-! DEFINITION. Which commands the outside world can send: what a frame can carry (R160) and which kinds are unknown (R165).
A transaction can carry any sequence of bits (R156). The ranges of lines, keys and points are in the operands' types. -/

namespace Sys2Proof

/-- R160: a request frame carries at most 40 payload bytes. -/
def payloadFits (p : List Byte) : Bool := p.length ≤ Config.maxPayload

/-- R165, R180: a kind that is no request of Chapter 10, no poll (0x00) and no SOFT_RESET (0x7F). -/
def isUnknownKind (kind : Byte) : Bool := kind ≠ 0x00 && kind ≠ softResetKind && !knownKinds.contains kind

/-- A command that the outside world can send. -/
def Instr.wellFormed (i : Instr) : Bool :=
  match i with
  | .unknownKind kind p => isUnknownKind kind && payloadFits p
  | i =>
    match i.payload? with
    | some p => payloadFits p
    | none => true

end Sys2Proof
end

