-- ==== Sys2Proof/Decode.lean ====
section
/-! DEFINITION. The commands that a word spells by the table's bits. No row of spec/opcode_table.json gives bits (every
row's fields are empty and none has fixed bits), so no word spells a command. -/

namespace Sys2Proof

/-- No row of the table gives bits, so no word of any width spells a command. -/
def decodeTableWord (_nbits _w : Nat) : Option Instr := none

end Sys2Proof
end

