-- ==== Sys2Proof/Machine/State.lean ====
section
/-! DEFINITION. The state of the part, as plain data: one structure for each of the nine blocks of 00_scope.md, the Notice
Table's beside the Shelf's, and the queue of waiting commands. INVENTORY.md lists every piece with its rule and its reset
value. -/

namespace Sys2Proof.Machine

/-! ## Names the manual enumerates -/

/-- R199. -/
inductive Mode
  | config
  | run
  deriving DecidableEq, Repr

/-- R1: the class of a point. -/
inductive PointClass
  | alarm
  | caution
  | indication
  deriving DecidableEq, Repr

/-- R1: the sequence of a point. -/
inductive Sequence
  | auto
  | manual
  | ringback
  deriving DecidableEq, Repr

/-- R20: the phase of a notice. -/
inductive Phase
  | alert
  | standing
  | fleeting
  | returned
  deriving DecidableEq, Repr

/-- R20: where a notice's point takes its condition from; also the source that READ_POINT reports (R18). -/
inductive Origin
  | line (l : LineNo)
  | link
  | system
  deriving DecidableEq, Repr

/-- R20: what the host says about a notice of a link-sourced point. A VALUE is a signed 16-bit number (R179). -/
inductive NoticeField
  | none
  | value (v : BitVec 16)
  | text (t : Text)
  deriving DecidableEq, Repr

/-- R22: the kinds of raise. -/
inductive RaiseKind
  | line
  | link
  | startUp
  | reEnable
  | admission
  | system
  deriving DecidableEq, Repr

/-- R86: the polarity of a line. -/
inductive Polarity
  | normal
  | inverted
  deriving DecidableEq, Repr

/-- R86, R91: the stage of a line's qualification. -/
inductive LineState
  | quiet
  | rising
  | active
  | falling
  deriving DecidableEq, Repr

/-- R86: whether a line is in chatter hold. -/
inductive Hold
  | none
  | chatter
  deriving DecidableEq, Repr

/-- R106: the stage of a key's qualification. -/
inductive KeyState
  | open
  | making
  | made
  | breaking
  deriving DecidableEq, Repr

/-- R121: the horn patterns. -/
inductive HornPattern
  | silent
  | chirp
  | ringbackTone
  | beat
  | pulse
  | continuous
  deriving DecidableEq, Repr

/-- R128: the modes of an output line. -/
inductive OutMode
  | off
  | unack
  | active
  | horn
  | group
  | system
  | host
  deriving DecidableEq, Repr

/-- R133, R140. -/
inductive LineMode
  | fourLine
  | twoLine
  deriving DecidableEq, Repr

/-- R133, R141. -/
inductive Orientation
  | normal
  | rotated
  deriving DecidableEq, Repr

/-- R135: the cadence patterns of tiles and markers. -/
inductive Pattern
  | fast
  | slow
  | wink
  | steady
  | off
  deriving DecidableEq, Repr

/-- R163: the link state. -/
inductive LinkState
  | idle
  | working
  | replyReady
  deriving DecidableEq, Repr

/-- R159: the last outcome. -/
inductive LastOutcome
  | none
  | taken
  | refusedBusy
  | refusedUnread
  | badCrc
  | badFrame
  deriving DecidableEq, Repr

/-- R169: the supervision state. -/
inductive Supervision
  | off
  | running
  | expired
  deriving DecidableEq, Repr

/-- R161: the sixteen result codes, in the order of their codes. -/
inductive Result
  | ok
  | refreshed
  | tableFull
  | unknownKind
  | badLength
  | badArgument
  | wrongMode
  | noNotice
  | notShelved
  | sourceConflict
  | pointLive
  | shelfFull
  | notPermitted
  | groupDisabled
  | badParent
  | invalidConfig
  deriving DecidableEq, Repr

/-! ## Countdowns in whole seconds -/

/-- A running countdown in whole seconds (R200). `left` is what reports show; it stays at 1 while `due` says that the tick at
which it reaches zero has come and its expiry, an event of its own, is still to be taken (log 3). -/
structure Countdown where
  left : Nat
  due : Bool
  deriving DecidableEq, Repr

/-! ## Point Table (Chapter 1) -/

/-- R1: the configuration of a user point. `shelveLimit` is in minutes. -/
structure PointRec where
  label : Text
  cls : PointClass
  seq : Sequence
  group : GroupNo
  tile : Option TileNo
  parent : Option UserPt
  shelveLimit : Nat
  deriving DecidableEq, Repr

/-- R4: a group record. -/
structure GroupRec where
  level : Nat
  enabled : Bool
  firstOutEnable : Bool
  marker : Option UserPt
  deriving DecidableEq, Repr

/-- Chapter 1: the Point Table. `cond` is true for ACTIVE (R5). -/
structure PointTable where
  points : Vector PointRec 128
  groups : Vector GroupRec 16
  cond : Vector Bool 130
  deriving DecidableEq, Repr

/-! ## Notice Table (Chapters 2 and 3) -/

/-- R20: a notice record. -/
structure Notice where
  point : Pt
  phase : Phase
  origin : Origin
  level : Nat
  arrival : Nat
  count : Nat
  firstOut : Bool
  silenced : Bool
  realert : Option Countdown
  stale : Bool
  chattering : Bool
  field : NoticeField
  rev : BitVec 16
  deriving DecidableEq, Repr

/-- Chapters 2 and 3: the live notices and the Pending Set, each in ascending point number, the arrival counter (R34) and the
table revision (R36). -/
structure NoticeTable where
  notices : List Notice
  pendSet : List UserPt
  arrival : Nat
  rev : BitVec 16
  deriving DecidableEq, Repr

/-! ## Shelf (Chapter 4) -/

/-- R70: an entry of the Shelf List, which stands in order of expiry (R71). -/
structure ShelfEntry where
  point : UserPt
  time : Countdown
  deriving DecidableEq, Repr

/-! ## Line Qualifier (Chapter 5) -/

/-- R86: a line record. `sample` is the previous sample as a raw level, true for active (R88, R90); `qualify` is the qualify
time the running qualification was started with, in units of 10 ms, and 0 when none runs (log 5); `timer` is the chatter
window while `hold` is none and the release timer while it is chatter. -/
structure LineRec where
  bound : Option UserPt
  polarity : Polarity
  qualifyOn : Nat
  qualifyOff : Nat
  chatterLimit : Nat
  state : LineState
  hold : Hold
  count : Nat
  timer : Option Countdown
  sample : Bool
  qualify : Nat
  deriving DecidableEq, Repr

/-- Chapter 5: the 32 lines and the chatter window W in seconds (R96). -/
structure LineQualifier where
  lines : Vector LineRec 32
  window : Nat
  deriving DecidableEq, Repr

/-! ## Keypad (Chapter 6) -/

/-- R105, R106, R108: a key. `sample` is the previous sample, true for pressed; `repeatTimer` the milliseconds its repeat
timer was set to, of UP and DOWN alone. -/
structure KeyRec where
  sample : Bool
  state : KeyState
  repeatTimer : Option Nat
  deriving DecidableEq, Repr

/-- Chapter 6: the keys, the key lock mask with bit k for key k (R109, R179; 1 for locked, log 27), and the lamp test (R115)
with its remaining seconds as they stood when it was last set (log 5). -/
structure Keypad where
  keys : Vector KeyRec 6
  lock : BitVec 6
  testRunning : Bool
  testLeft : Nat
  deriving DecidableEq, Repr

/-! ## Sounder (Chapter 7) -/

/-- R128: an output line record with its host value. -/
structure OutRec where
  mode : OutMode
  param : Nat
  inverted : Bool
  hostValue : Bool
  deriving DecidableEq, Repr

/-- Chapter 7: the Sounder. `chirp` is none, or how many steps of the running burst have begun (R124). -/
structure Sounder where
  floor : Nat
  realertMin : Nat
  chirp : Option Nat
  oddCycle : Bool
  horn : Bool
  outs : Vector OutRec 4
  deriving DecidableEq, Repr

/-! ## Presentation (Chapter 8) -/

/-- R139: a frame, to the character code of each cell and the marker attribute of each cell row (log 11). -/
structure Frame where
  cells : Vector (Vector Byte 20) 4
  marks : Vector Pattern 4
  deriving DecidableEq, Repr

/-- R153: what a composition reads at its start. `rows` are the at most L notices of the window with their labels, `unack`
and `presented` the counts of the status line. -/
structure Snapshot where
  mode : Mode
  lineMode : LineMode
  top : Nat
  rows : List (Notice × Text)
  unack : Nat
  presented : Nat
  shelfCount : Nat
  overflow : Bool
  message : Text
  deriving DecidableEq, Repr

/-- R153: the composer. -/
inductive Composer
  | idle
  | composing (snap : Snapshot)
  | ready
  deriving DecidableEq, Repr

/-- R140 to R142, R116: what the LCD frame being scanned took when it began. -/
structure Scan where
  step : Fin 8
  lineMode : LineMode
  orient : Orientation
  allLit : Bool
  deriving DecidableEq, Repr

/-- Chapter 8: Presentation. `refresh` holds the 48 values of the lamp-chain refresh in progress, `lamps` what the external
latches hold (R137). -/
structure Presentation where
  step : Fin 8
  lineMode : LineMode
  orient : Orientation
  scrollHold : Nat
  message : Text
  top : Nat
  anchor : Option Pt
  scrollTimer : Option Countdown
  composer : Composer
  dirty : Bool
  front : Frame
  back : Frame
  scan : Scan
  refresh : Option (Vector Bool 48)
  lamps : Vector Bool 48
  deriving DecidableEq, Repr

/-! ## Link (Chapter 9) -/

/-- R161: a reply frame, less its length and CRC, which follow from it. -/
structure ReplyFrame where
  result : Result
  tag : Byte
  payload : List Byte
  deriving DecidableEq, Repr

/-- R163: the request that the Link has taken. -/
structure Taken where
  kind : Byte
  tag : Byte
  payload : List Byte
  deriving DecidableEq, Repr

/-- The reply that the last run of a request made, with the kind and payload of the request it answers; the model's own
field, from which the placement takes its frame (log 2). -/
structure Ran where
  kind : Byte
  request : List Byte
  result : Result
  reply : List Byte
  deriving DecidableEq, Repr

/-- R157: a transaction in progress: the link status byte sampled at its CSN fall and the reply frame it carries, if that
status byte reported REPLY_READY. -/
structure Transaction where
  status : Byte
  reply : Option ReplyFrame
  deriving DecidableEq, Repr

/-- Chapter 9: the Link. `flags` and `enables` have the mask positions of R175. `muted` holds from a CSN fall inside the hold of a
SOFT_RESET to the CSN rise: MISO stays at high impedance for the whole of that transaction (R202). -/
structure Link where
  state : LinkState
  outcome : LastOutcome
  fresh : Bool
  slot : Option ReplyFrame
  taken : Option Taken
  ran : Option Ran
  supSetting : Nat
  sup : Supervision
  supTimer : Option Countdown
  flags : Byte
  enables : Byte
  csnLow : Bool
  trans : Option Transaction
  muted : Bool
  deriving DecidableEq, Repr

/-! ## Mode Control (Chapter 11) -/

/-- Chapter 11: the mode (R199), the supply and RESETN, what holds the part in reset (R201, R202), and the oscillator
(R200). -/
structure Control where
  mode : Mode
  supplyOk : Bool
  resetnLow : Bool
  powerHold : Bool
  pinHold : Bool
  softHold : Bool
  oscRunning : Bool
  deriving DecidableEq, Repr

/-! ## The whole state -/

/-- The state of the part and the queue of the commands that wait, first in first out. -/
structure State where
  pending : List Instr
  ctl : Control
  pt : PointTable
  nt : NoticeTable
  shelf : List ShelfEntry
  lq : LineQualifier
  kp : Keypad
  snd : Sounder
  pres : Presentation
  link : Link
  deriving DecidableEq, Repr

/-- The spec gives the part no fault that stops it (INVENTORY.md, Faults): no command raises one. Safe: nothing is left out
behind it. -/
inductive Fault
  deriving DecidableEq, Repr

/-- Why a command has no meaning in the model. -/
inductive Refusal
  /-- Raised by an arm of `exec` whose command has no meaning yet. Safe: no claim can be proved about the command. Every
  command has its meaning, so nothing raises it. -/
  | notModelled (mnemonic : String)
  deriving DecidableEq, Repr

/-! ## Reset values -/

/-- R1: the default of a user point. -/
def PointRec.default : PointRec :=
  { label := [], cls := .alarm, seq := .auto, group := 0, tile := none, parent := none, shelveLimit := 0 }

/-- R4: the default of a group. -/
def GroupRec.default : GroupRec := { level := 2, enabled := true, firstOutEnable := false, marker := none }

/-- Chapter 1 after a reset. -/
def PointTable.reset : PointTable :=
  { points := Vector.replicate 128 PointRec.default, groups := Vector.replicate 16 GroupRec.default,
    cond := Vector.replicate 130 false }

/-- R20, R34, R36, R60 after a reset. -/
def NoticeTable.reset : NoticeTable := { notices := [], pendSet := [], arrival := 1, rev := 0 }

/-- R86: the default of a line. The previous sample is inactive, as R90 compares the first sample with; that READ_LINE reports this
inactive as the raw level until the first sample is taken, where R89 names none, is the model's choice (log 26; log 30 for a
polarity write before that sample). -/
def LineRec.default : LineRec :=
  { bound := none, polarity := .normal, qualifyOn := 5, qualifyOff := 5, chatterLimit := 0, state := .quiet, hold := .none,
    count := 0, timer := none, sample := false, qualify := 0 }

/-- Chapter 5 after a reset (R86, R96). -/
def LineQualifier.reset : LineQualifier := { lines := Vector.replicate 32 LineRec.default, window := 60 }

/-- R106, R108: a key after a reset. -/
def KeyRec.default : KeyRec := { sample := false, state := .open, repeatTimer := none }

/-- Chapter 6 after a reset (R106, R109, R115). -/
def Keypad.reset : Keypad :=
  { keys := Vector.replicate 6 KeyRec.default, lock := 0, testRunning := false, testLeft := 0 }

/-- R128: the default of an output line. -/
def OutRec.default : OutRec := { mode := .off, param := 0, inverted := false, hostValue := false }

/-- Chapter 7 after a reset. -/
def Sounder.reset : Sounder :=
  { floor := 1, realertMin := 0, chirp := none, oddCycle := false, horn := false,
    outs := Vector.replicate 4 OutRec.default }

/-- A row of 20 spaces. -/
def blankRow : Vector Byte 20 := Vector.replicate 20 Config.space

/-- A text laid into a row of 20 cells: left-aligned, padded with spaces, cut at 20. -/
def textRow (t : Text) : Vector Byte 20 := ⟨⟨(t ++ List.replicate 20 Config.space).take 20⟩, by simp⟩

/-- R151: the CONFIG screen. -/
def configScreen : Frame :=
  { cells := #v[textRow Config.outOfService, blankRow, blankRow, blankRow], marks := Vector.replicate 4 .steady }

/-- Chapter 8 after a reset (R133, R143, R145, R153, R154). The external lamp latches keep what they held (R137), which is
the argument. -/
def Presentation.reset (lamps : Vector Bool 48) : Presentation :=
  { step := 0, lineMode := .fourLine, orient := .normal, scrollHold := 30, message := [], top := 0, anchor := none,
    scrollTimer := none, composer := .idle, dirty := false, front := configScreen, back := configScreen,
    scan := { step := 0, lineMode := .fourLine, orient := .normal, allLit := false }, refresh := none, lamps := lamps }

/-- Chapter 9 after a reset. The level of the CSN pin is the host's, and where its fall stood against the hold of a SOFT_RESET
outlasts the hold (R202); both are arguments. -/
def Link.reset (csnLow muted : Bool) : Link :=
  { state := .idle, outcome := .none, fresh := true, slot := none, taken := none, ran := none, supSetting := 0, sup := .off,
    supTimer := none, flags := 0, enables := 0, csnLow := csnLow, trans := none, muted := muted }

/-- R201, R202: every item at its reset value. What is not the part's own is kept: the supply, the RESETN and CSN pins, the
hold that CSN fell in, the oscillator, what holds the part in reset, the external lamp latches, and the queue. -/
def State.cleared (s : State) : State :=
  { pending := s.pending, ctl := { s.ctl with mode := .config }, pt := .reset, nt := .reset, shelf := [], lq := .reset,
    kp := .reset, snd := .reset, pres := .reset s.pres.lamps, link := .reset s.link.csnLow s.link.muted }

/-- The part right after reset exit (R201): every item at its reset value, nothing holds the part, and no command waits.
CSN and RESETN high, the supply in range (log 9) and dark lamp latches (log 8) are the model's choice. -/
def State.reset : State :=
  { pending := [],
    ctl := { mode := .config, supplyOk := true, resetnLow := false, powerHold := false, pinHold := false, softHold := false,
             oscRunning := true },
    pt := .reset, nt := .reset, shelf := [], lq := .reset, kp := .reset, snd := .reset,
    pres := .reset (Vector.replicate 48 false), link := .reset false false }

/-! ## Block updates -/

/-- The state with another Point Table. -/
def State.withPt (s : State) (b : PointTable) : State := { s with pt := b }

/-- The state with another Notice Table. -/
def State.withNt (s : State) (b : NoticeTable) : State := { s with nt := b }

/-- The state with another Shelf List. -/
def State.withShelf (s : State) (b : List ShelfEntry) : State := { s with shelf := b }

/-- The state with another Line Qualifier. -/
def State.withLq (s : State) (b : LineQualifier) : State := { s with lq := b }

/-- The state with another Keypad. -/
def State.withKp (s : State) (b : Keypad) : State := { s with kp := b }

/-- The state with another Sounder. -/
def State.withSnd (s : State) (b : Sounder) : State := { s with snd := b }

/-- The state with another Presentation. -/
def State.withPres (s : State) (b : Presentation) : State := { s with pres := b }

/-- The state with another Link. -/
def State.withLink (s : State) (b : Link) : State := { s with link := b }

/-- The state with another Mode Control. -/
def State.withCtl (s : State) (b : Control) : State := { s with ctl := b }

/-- The state with another queue. -/
def State.withPending (s : State) (q : List Instr) : State := { s with pending := q }

end Sys2Proof.Machine
end

