-- ==== Sys2Proof/Machine/Derived.lean ====
section
/-! DEFINITION. What the rules derive from the state and never store: the configuration of any point, its source, the Rank
List and the presented view (Chapter 3), shelved and suppressed (Chapter 4), qualified and held levels (Chapter 5), the
sounding notices, the horn pattern and the output lines (Chapter 7), and the tiles (Chapter 8). -/

namespace Sys2Proof.Machine

/-! ## Points and groups -/

/-- A point as a user point; the two system points are none. -/
def userOf (p : Pt) : Option UserPt := if h : p.val < 128 then some ⟨p.val, h⟩ else none

/-- R1: the record of a user point. -/
def State.pointRec (s : State) (u : UserPt) : PointRec := s.pt.points.get u

/-- R4: the record of a group. -/
def State.groupRec (s : State) (g : GroupNo) : GroupRec := s.pt.groups.get g

/-- R5: whether a point's condition is ACTIVE. -/
def State.active (s : State) (p : Pt) : Bool := s.pt.cond.get p

/-- The group of a point; a system point belongs to none (R3). -/
def State.groupOf (s : State) (p : Pt) : Option GroupNo := (userOf p).map fun u => (s.pointRec u).group

/-- R1, R3: the class of a point. -/
def State.classOf (s : State) (p : Pt) : PointClass :=
  match userOf p with
  | some u => (s.pointRec u).cls
  | none => .alarm

/-- R1, R3: the sequence of a point. -/
def State.seqOf (s : State) (p : Pt) : Sequence :=
  match userOf p with
  | some u => (s.pointRec u).seq
  | none => .auto

/-- R3, R4: the level of a point: its group's, or 3 for a system point. -/
def State.levelOf (s : State) (p : Pt) : Nat :=
  match s.groupOf p with
  | some g => (s.groupRec g).level
  | none => 3

/-- R1, R3: the parent of a point. -/
def State.parentOf (s : State) (p : Pt) : Option UserPt := (userOf p).bind fun u => (s.pointRec u).parent

/-- R1, R3: the tile of a point. -/
def State.tileOf (s : State) (p : Pt) : Option TileNo := (userOf p).bind fun u => (s.pointRec u).tile

/-- R1, R3: the label of a point as stored; the system labels are fixed. -/
def State.labelOf (s : State) (p : Pt) : Text :=
  match userOf p with
  | some u => (s.pointRec u).label
  | none => if p = hostSilent then Config.hostSilentLabel else Config.panelOverflowLabel

/-- R6: whether the Point Table delivers edges of a point: in RUN, and for a user point with its group enabled. -/
def State.delivers (s : State) (p : Pt) : Bool :=
  s.ctl.mode = .run &&
    match s.groupOf p with
    | some g => (s.groupRec g).enabled
    | none => true

/-! ## Lines -/

/-- R86: a line record. -/
def State.lineRec (s : State) (l : LineNo) : LineRec := s.lq.lines.get l

/-- R86: the qualified level. -/
def LineRec.qualified (r : LineRec) : Bool := r.state = .active || r.state = .falling

/-- R86: the held level. -/
def LineRec.held (r : LineRec) : Bool := r.hold = .chatter || r.qualified

/-- R2: the line that binds a user point. -/
def State.bindingLine (s : State) (u : UserPt) : Option LineNo :=
  (List.finRange 32).find? fun l => (s.lineRec l).bound = some u

/-- R20, R18: the source of a point. -/
def State.sourceOf (s : State) (p : Pt) : Origin :=
  match userOf p with
  | some u =>
    match s.bindingLine u with
    | some l => .line l
    | none => .link
  | none => .system

/-- R24, R47: whether the line that binds a point is in chatter hold. -/
def State.inChatter (s : State) (p : Pt) : Bool :=
  match s.sourceOf p with
  | .line l => (s.lineRec l).hold = .chatter
  | .link | .system => false

/-! ## The Notice Table -/

/-- The live notice of a point (R24: at most one). -/
def State.notice? (s : State) (p : Pt) : Option Notice := s.nt.notices.find? fun n => n.point = p

/-- R57: the live user count. -/
def State.userCount (s : State) : Nat := (s.nt.notices.filter fun n => (userOf n.point).isSome).length

/-- R57: the table is full. -/
def State.tableFull (s : State) : Bool := Config.userRecords ≤ s.userCount

/-- R50, key 2: ALERT, then FLEETING, then RETURNED, then STANDING. -/
def Phase.bucket : Phase → Nat
  | .alert => 0
  | .fleeting => 1
  | .returned => 2
  | .standing => 3

/-- R50: whether notice a stands before notice b in the Rank List. -/
def Notice.ranksBefore (a b : Notice) : Bool :=
  b.level < a.level ||
    (a.level = b.level &&
      (a.phase.bucket < b.phase.bucket || (a.phase.bucket = b.phase.bucket && a.arrival < b.arrival)))

/-- A notice put at its place in a list in Rank List order. -/
def rankInsert (n : Notice) : List Notice → List Notice
  | [] => [n]
  | m :: rest => if n.ranksBefore m then n :: m :: rest else m :: rankInsert n rest

/-- R50: notices in Rank List order. -/
def rankSort : List Notice → List Notice
  | [] => []
  | n :: rest => rankInsert n (rankSort rest)

/-- R50: the Rank List. -/
def State.rankList (s : State) : List Notice := rankSort s.nt.notices

/-- R70: the Shelf List entry of a point. -/
def State.shelfEntry? (s : State) (p : Pt) : Option ShelfEntry := s.shelf.find? fun e => UserPt.pt e.point = p

/-- R21: a point is shelved while it has an entry on the Shelf List. -/
def State.shelved (s : State) (p : Pt) : Bool := (s.shelfEntry? p).isSome

/-- R21, R79: a point is suppressed while its parent's condition is ACTIVE. -/
def State.suppressed (s : State) (p : Pt) : Bool :=
  match s.parentOf p with
  | some q => s.active (UserPt.pt q)
  | none => false

/-- R55: withheld from the presented view. -/
def State.withheld (s : State) (p : Pt) : Bool := s.shelved p || s.suppressed p

/-- R55: the presented view. -/
def State.presented (s : State) : List Notice := s.rankList.filter fun n => !s.withheld n.point

/-- Unacknowledged, or returned and waiting: the phases that R129 (UNACK), R149 and R195 count. -/
def Phase.unack : Phase → Bool
  | .alert | .fleeting | .returned => true
  | .standing => false

/-- ALERT or FLEETING: the phases of an unacknowledged notice (R38, R42, R83). -/
def Phase.unseen : Phase → Bool
  | .alert | .fleeting => true
  | .standing | .returned => false

/-- R110, R190: what an ack of scope all reaches among the presented notices. -/
def State.ackable (s : State) (n : Notice) : Bool :=
  n.phase.unseen || (n.phase = .returned && s.seqOf n.point = .ringback)

/-- R23: the points of the presented notices that satisfy a test, in ascending point number (the notices stand so). -/
def State.presentedScope (s : State) (f : Notice → Bool) : List Pt :=
  (s.nt.notices.filter fun n => !s.withheld n.point && f n).map (·.point)

/-- R38: the points of the other live notices of a group in ALERT or FLEETING are none. -/
def State.groupQuiet (s : State) (g : GroupNo) (p : Pt) : Bool :=
  s.nt.notices.all fun n => n.point = p || s.groupOf n.point ≠ some g || !n.phase.unseen

/-- R22: a fresh raise is a line raise or a link raise. -/
def RaiseKind.fresh : RaiseKind → Bool
  | .line | .link => true
  | .startUp | .reEnable | .admission | .system => false

/-- R38: whether a raise that puts a point's notice into ALERT is granted first-out. -/
def State.grantsFirstOut (s : State) (kind : RaiseKind) (p : Pt) : Bool :=
  kind.fresh && s.classOf p ≠ .indication &&
    (match s.groupOf p with
     | some g =>
       (s.groupRec g).firstOutEnable && (s.groupRec g).marker.isNone && s.groupQuiet g p
     | none => false) &&
    !s.suppressed p

/-- R65: the level the arbiter reads of a member of the Pending Set. -/
def State.memberLevel (s : State) (u : UserPt) : Nat := (s.groupRec (s.pointRec u).group).level

/-- R65: the member with the highest group level and, among equals, the lowest number (the set stands ascending). -/
def State.arbiterPick (s : State) : Option UserPt :=
  s.nt.pendSet.foldl
    (fun best u =>
      match best with
      | some b => if s.memberLevel b < s.memberLevel u then some u else some b
      | none => some u)
    none

/-- R79, R81: the points of the live notices whose parent is a point, ascending. -/
def State.liveChildren (s : State) (u : UserPt) : List Pt :=
  (s.nt.notices.filter fun n => s.parentOf n.point = some u).map (·.point)

/-! ## Sounder -/

/-- R119: whether a live notice is sounding. -/
def State.sounding (s : State) (n : Notice) : Bool :=
  !s.withheld n.point && s.classOf n.point ≠ .indication && s.snd.floor ≤ n.level && !n.silenced && s.ackable n

/-- R42: the scope of a silence. -/
def State.soundingScope (s : State) : List Pt := (s.nt.notices.filter s.sounding).map (·.point)

/-- Whether a sounding notice of a level is in ALERT or FLEETING (R121, cases 1 to 3). -/
def State.soundsAt (s : State) (level : Nat) : Bool :=
  s.nt.notices.any fun n => s.sounding n && n.level = level && n.phase.unseen

/-- R121, cases 1 to 4: the steady pattern, if one applies. -/
def State.steadyPattern (s : State) : Option HornPattern :=
  if s.soundsAt 4 then some .continuous
  else if s.soundsAt 3 then some .pulse
  else if s.soundsAt 2 then some .beat
  else if s.nt.notices.any fun n => s.sounding n && n.phase = .returned then some .ringbackTone
  else none

/-- R121: the derived horn pattern. -/
def State.hornPattern (s : State) : HornPattern :=
  match s.steadyPattern with
  | some p => p
  | none => if s.snd.chirp.isSome then .chirp else .silent

/-- R117, R122: the pattern in force at a step boundary. -/
def State.patternInForce (s : State) : HornPattern :=
  if s.kp.testRunning then (if s.hornPattern = .continuous then .continuous else .pulse) else s.hornPattern

/-- R201: something holds the part in reset. -/
def State.inReset (s : State) : Bool := s.ctl.powerHold || s.ctl.pinHold || s.ctl.softHold

/-- The part takes events: nothing holds it in reset (R201) and the oscillator runs (R200). -/
def State.inService (s : State) : Bool := !s.inReset && s.ctl.oscRunning

/-- R129: the demand of an output line. -/
def State.outDemand (s : State) (o : OutRec) : Bool :=
  match o.mode with
  | .off => false
  | .unack => s.presented.any fun n => o.param ≤ n.level && n.phase.unack
  | .active => s.presented.any fun n => o.param ≤ n.level && s.active n.point
  | .horn => s.hornPattern ≠ .silent
  | .group => s.nt.notices.any fun n => (s.groupOf n.point).map Fin.val = some o.param && s.active n.point
  | .system => s.nt.notices.any fun n => (userOf n.point).isNone
  | .host => o.hostValue

/-- R128, R129: whether an output line is energized; none is while the part is held in reset. -/
def State.outEnergized (s : State) (k : OutNo) : Bool :=
  !s.inReset && (s.outDemand (s.snd.outs.get k) != (s.snd.outs.get k).inverted)

/-! ## Tiles and patterns -/

/-- R135: the steps in which a pattern is lit. -/
def Pattern.litIn (p : Pattern) (step : Fin 8) : Bool :=
  match p with
  | .fast => step.val % 2 = 0
  | .slow => step.val ≤ 3
  | .wink => step.val ≤ 1
  | .steady => true
  | .off => false

/-- R136: the pattern a presented notice asks of its tile, and the marker attribute of its line (R148). -/
def Notice.pattern (n : Notice) : Pattern :=
  match n.phase with
  | .alert => if n.firstOut then .fast else .slow
  | .fleeting => .slow
  | .returned => .wink
  | .standing => .steady

/-- R135: the order of urgency, most urgent first. -/
def Pattern.urgency : Pattern → Nat
  | .fast => 0
  | .slow => 1
  | .wink => 2
  | .steady => 3
  | .off => 4

/-- R136: the pattern of a tile. -/
def State.tilePattern (s : State) (t : TileNo) : Pattern :=
  (s.presented.filter fun n => s.tileOf n.point = some t).foldl
    (fun best n => if n.pattern.urgency < best.urgency then n.pattern else best) .off

/-- R137, R116: whether a tile is sampled as lit in a step. -/
def State.tileLit (s : State) (step : Fin 8) (t : TileNo) : Bool :=
  s.kp.testRunning || (s.tilePattern t).litIn step

/-- R122: whether the HORN line is on in a step of a pattern; `chirpStep` says the step is one of a burst's three. -/
def HornPattern.onIn (p : HornPattern) (step : Fin 8) (oddCycle chirpStep : Bool) : Bool :=
  match p with
  | .continuous => true
  | .pulse => step.val ≤ 3
  | .beat => step.val ≤ 1
  | .ringbackTone => step.val = 0 && !oddCycle
  | .chirp => chirpStep
  | .silent => false

/-- A vector built from another, element by element with its number. -/
def vmap {α β : Type} {n : Nat} (f : Fin n → α → β) (v : Vector α n) : Vector β n :=
  ⟨⟨(List.finRange n).map fun i => f i (v.get i)⟩, by simp⟩

end Sys2Proof.Machine
end

