-- ==== Sys2Proof/Machine/Flags.lean ====
section
/-! DEFINITION. The flag bytes of the part: the eight attention events with ATTN (R175, R176), the link status byte (R158),
and the bytes that replies pack with flags (R183). -/

namespace Sys2Proof.Machine

/-- R175: the attention events. -/
inductive AttnEvent
  | newAlert
  | operator
  | retired
  | overflow
  | shelfExpiry
  | chatter
  | reply
  | linkFault
  deriving DecidableEq, Repr

/-- R175: the mask bit of an attention event. -/
def AttnEvent.mask : AttnEvent → Byte
  | .newAlert => 0x01
  | .operator => 0x02
  | .retired => 0x04
  | .overflow => 0x08
  | .shelfExpiry => 0x10
  | .chatter => 0x20
  | .reply => 0x40
  | .linkFault => 0x80

/-- R175: the flag of an event is set; one already set stays set. -/
def Link.setFlag (k : Link) (e : AttnEvent) : Link := { k with flags := k.flags ||| e.mask }

/-- R177: CLEAR_EVENTS clears every flag whose mask bit is 1. -/
def Link.clearFlags (k : Link) (mask : Byte) : Link := { k with flags := k.flags &&& ~~~mask }

/-- R175: whether the flag of an event is set. -/
def State.flagged (s : State) (e : AttnEvent) : Bool := s.link.flags &&& e.mask ≠ 0

/-- R176: ATTN is asserted while at least one event has both its flag and its enable set. In reset it is released, since
every flag and enable is then clear. -/
def State.attn (s : State) : Bool := s.link.flags &&& s.link.enables ≠ 0

/-- R158, bits 7 to 6. -/
def LinkState.code : LinkState → Byte
  | .idle => 0
  | .working => 1
  | .replyReady => 2

/-- R158, bits 5 to 3. -/
def LastOutcome.code : LastOutcome → Byte
  | .none => 0
  | .taken => 1
  | .refusedBusy => 2
  | .refusedUnread => 3
  | .badCrc => 4
  | .badFrame => 5

/-- A yes/no field: 0x01 for yes, 0x00 for no (R179). -/
def bit (b : Bool) : Byte := if b then 1 else 0

/-- R158: the link status byte. -/
def State.statusByte (s : State) : Byte :=
  (s.link.state.code <<< 6) ||| (s.link.outcome.code <<< 3) ||| (bit s.link.fresh <<< 2) ||| (bit s.attn <<< 1) ||| 1

/-- R183: the notice flags of LOOKUP and LIST. -/
def State.noticeFlags (s : State) (n : Notice) : Byte :=
  bit n.firstOut ||| (bit n.silenced <<< 1) ||| (bit n.stale <<< 2) ||| (bit n.chattering <<< 3) |||
    (bit (s.shelved n.point) <<< 4) ||| (bit (s.suppressed n.point) <<< 5) ||| (bit n.realert.isSome <<< 6) |||
    (bit (s.sounding n) <<< 7)

/-- R183: the output flags of READ_PANEL. -/
def State.outFlags (s : State) (k : OutNo) : Byte :=
  bit (s.snd.outs.get k).inverted ||| (bit (s.snd.outs.get k).hostValue <<< 1) ||| (bit (s.outEnergized k) <<< 2)

end Sys2Proof.Machine
end

