-- ==== Sys2Proof/Machine/Ops.lean ====
section
/-! DEFINITION. The shared operations inside one event: countdowns, changes of records, the phase machine (Chapter 2), the
Pending Set and admission (Chapter 3), re-annunciation (Chapter 4), and changes of condition (Chapter 1). They are layered:
the operations of a system notice, which free no user record, stand below the admission, which stands below the operations of
a user notice. -/

namespace Sys2Proof.Machine

/-! ## Countdowns -/

/-- A countdown set to a number of seconds. -/
def Countdown.start (seconds : Nat) : Countdown := { left := seconds, due := false }

/-- R200: a countdown moves at the seconds tick; at 1 it reaches zero, and its expiry is due (log 3). -/
def Countdown.tick (c : Countdown) : Countdown :=
  if 1 < c.left then { c with left := c.left - 1 } else { c with due := true }

/-- Whether an optional countdown has reached zero. -/
def expiryDue (c : Option Countdown) : Bool := c.any (·.due)

/-- The seconds of an optional countdown as a report shows them: 0 when it is absent (R183). -/
def secondsLeft (c : Option Countdown) : Nat :=
  match c with
  | some c => c.left
  | none => 0

/-! ## An event at work -/

/-- A state inside one event, with what the event has to tell Presentation and the Sounder at its end: the points put into
ALERT or re-annunciated in ALERT (R56, R83, R123), the points in ALERT whose realert countdown expired (R123), whether a
notification is handed over whatever changed (R204), and whether a composition is requested for a cause of its own (R152). -/
structure Work where
  st : State
  alerts : List Pt
  chirps : List Pt
  notify : Bool
  compose : Bool

/-- An event begins. -/
def State.work (s : State) : Work := { st := s, alerts := [], chirps := [], notify := false, compose := false }

/-- Another state in the same event. -/
def Work.onState (w : Work) (f : State → State) : Work := { w with st := f w.st }

/-- Another Notice Table in the same event. -/
def Work.onNt (w : Work) (f : NoticeTable → NoticeTable) : Work := w.onState fun s => s.withNt (f s.nt)

/-- R175: the event sets an attention flag. -/
def Work.flag (w : Work) (e : AttnEvent) : Work := w.onState fun s => s.withLink (s.link.setFlag e)

/-- R4: the group's marker is written, by the Notice Table alone. -/
def Work.setMarker (w : Work) (g : GroupNo) (m : Option UserPt) : Work :=
  w.onState fun s => s.withPt { s.pt with groups := s.pt.groups.set g.val { s.groupRec g with marker := m } }

/-- R5: a condition takes a value; edges and suppression are the callers'. -/
def Work.putCond (w : Work) (p : Pt) (v : Bool) : Work :=
  w.onState fun s => s.withPt { s.pt with cond := s.pt.cond.set p.val v }

/-- R48, R56: a notice enters ALERT, or is re-annunciated in it. -/
def Work.alertShown (w : Work) (p : Pt) : Work := { w.flag .newAlert with alerts := p :: w.alerts }

/-! ## Changes of records -/

/-- R36: one change to the record of a point: the table revision advances by 1 and is copied into the record. -/
def NoticeTable.change (t : NoticeTable) (p : Pt) (f : Notice → Notice) : NoticeTable :=
  { t with
    notices := t.notices.map fun n => if n.point = p then { f n with rev := t.rev + 1 } else n
    rev := t.rev + 1 }

/-- R36: one change to the record of a point. -/
def Work.change (w : Work) (p : Pt) (f : Notice → Notice) : Work := w.onNt fun t => t.change p f

/-- R35: live notices numbered 1 to n in the order of their arrival numbers, the counter at n + 1. -/
def NoticeTable.renumber (t : NoticeTable) : NoticeTable :=
  { t with
    notices := t.notices.map fun n =>
      { n with arrival := (t.notices.filter fun m => m.arrival < n.arrival).length + 1 }
    arrival := t.notices.length + 1 }

/-- R34, R35: after the counter's value was assigned, the counter increases by 1, or the table is renumbered when the number
assigned was 65 535. -/
def NoticeTable.advance (t : NoticeTable) : NoticeTable :=
  if t.arrival = 65535 then t.renumber else { t with arrival := t.arrival + 1 }

/-- A record put at its place in ascending point number. -/
def insertNotice (n : Notice) : List Notice → List Notice
  | [] => [n]
  | m :: rest => if n.point < m.point then n :: m :: rest else m :: insertNotice n rest

/-- A user point put at its place in an ascending set. -/
def insertPoint (u : UserPt) : List UserPt → List UserPt
  | [] => [u]
  | v :: rest => if u < v then u :: v :: rest else if u = v then v :: rest else v :: insertPoint u rest

/-- R40: the marker of a notice's group is cleared with its first-out flag. -/
def Work.dropMarker (w : Work) (n : Notice) : Work :=
  match n.firstOut, w.st.groupOf n.point with
  | true, some g => w.setMarker g none
  | _, _ => w

/-- R38: on a grant, the group's marker is set to the point. -/
def Work.grantMarker (w : Work) (granted : Bool) (p : Pt) : Work :=
  match granted, userOf p with
  | true, some u => w.setMarker (w.st.pointRec u).group (some u)
  | _, _ => w

/-- R24, R29, R66: the record that a raise creates. -/
def State.newNotice (s : State) (kind : RaiseKind) (p : Pt) (phase : Phase) (field : NoticeField) : Notice :=
  { point := p, phase := phase, origin := s.sourceOf p, level := s.levelOf p, arrival := s.nt.arrival, count := 1,
    firstOut := decide (phase = .alert) && s.grantsFirstOut kind p, silenced := false, realert := none, stale := false,
    chattering := s.inChatter p, field := field, rev := s.nt.rev + 1 }

/-- R24, R29, R34, R36, R38: a raise creates the notice of a point in a phase. -/
def Work.create (w : Work) (kind : RaiseKind) (p : Pt) (phase : Phase) (field : NoticeField) : Work :=
  let n := w.st.newNotice kind p phase field
  let w1 := w.onNt fun t => { t with notices := insertNotice n t.notices, rev := t.rev + 1 }.advance
  let w2 := w1.grantMarker n.firstOut p
  if phase = .alert then w2.alertShown p else w2

/-- R25: a re-raise takes a FLEETING or RETURNED notice to ALERT. -/
def Work.reRaise (w : Work) (kind : RaiseKind) (n : Notice) (field : NoticeField) : Work :=
  let granted := w.st.grantsFirstOut kind n.point
  let a := w.st.nt.arrival
  let w1 := w.onNt fun t =>
    (t.change n.point fun m =>
      { m with
        phase := .alert, count := min 255 (m.count + 1), arrival := a, silenced := false, realert := none,
        firstOut := m.firstOut || granted,
        field := if kind = .link then field else m.field }).advance
  (w1.grantMarker granted n.point).alertShown n.point

/-- R25, R33: a raise that finds ALERT or STANDING is a refresh; a link raise writes its field, a change if it differs. -/
def Work.refresh (w : Work) (kind : RaiseKind) (n : Notice) (field : NoticeField) : Work :=
  if kind = .link ∧ n.field ≠ field then w.change n.point fun m => { m with field := field } else w

/-- R24, R29: the phase in which a raise creates a notice with its condition ACTIVE. -/
def PointClass.raisedPhase (c : PointClass) : Phase := if c = .indication then .standing else .alert

/-- R24, R25, R29: a raise at the Notice Table that has a record for the point, or needs none. -/
def Work.raiseNotice (w : Work) (kind : RaiseKind) (p : Pt) (field : NoticeField) : Work :=
  match w.st.notice? p with
  | none => w.create kind p (w.st.classOf p).raisedPhase field
  | some n =>
    match n.phase with
    | .alert | .standing => w.refresh kind n field
    | .fleeting | .returned => w.reRaise kind n field

/-! ## Retirement and the system points -/

/-- R30, steps 1 to 5: a record leaves the Notice Table; RETIRED is set unless the event says otherwise. -/
def Work.remove (w : Work) (n : Notice) (announce : Bool) : Work :=
  let w1 := (w.dropMarker n).onNt fun t =>
    { t with notices := t.notices.filter fun m => m.point ≠ n.point, rev := t.rev + 1 }
  if announce then w1.flag .retired else w1

/-- R26, R68: a clear at a system notice, which follows the AUTO phase machine; its slot is not offered to the arbiter. -/
def Work.clearSystem (w : Work) (p : Pt) : Work :=
  match w.st.notice? p with
  | none => w
  | some n =>
    match n.phase with
    | .alert => w.change p fun m => { m with phase := .fleeting }
    | .standing => w.remove n true
    | .fleeting | .returned => w

/-- R5, R6: the condition of a system point takes a value, delivered in RUN as a system raise or a system clear. -/
def Work.setSystem (w : Work) (p : Pt) (v : Bool) : Work :=
  if w.st.active p = v then w
  else
    let w1 := w.putCond p v
    if w1.st.delivers p then (if v then w1.raiseNotice .system p .none else w1.clearSystem p) else w1

/-! ## The Pending Set and admission -/

/-- R61, R69: a point enters the Pending Set; entering an empty set raises PANEL OVERFLOW and sets OVERFLOW. -/
def Work.pend (w : Work) (u : UserPt) : Work :=
  let w1 := w.onNt fun t => { t with pendSet := insertPoint u t.pendSet }
  if w.st.nt.pendSet = [] then (w1.setSystem panelOverflow true).flag .overflow else w1

/-- R63: members leave the Pending Set; leaving it empty clears PANEL OVERFLOW. -/
def Work.withdraw (w : Work) (gone : UserPt → Bool) : Work :=
  if w.st.nt.pendSet.any gone then
    let w1 := w.onNt fun t => { t with pendSet := t.pendSet.filter fun u => !gone u }
    if w1.st.nt.pendSet = [] then w1.setSystem panelOverflow false else w1
  else w

/-- R66: the phase in which an admission raise creates a notice. -/
def State.admissionPhase (s : State) (u : UserPt) : Phase :=
  if (s.pointRec u).cls = .indication then .standing else if s.active (UserPt.pt u) then .alert else .fleeting

/-- R64 to R66: a freed user record is offered to the arbiter, which admits one member of the Pending Set. The clear of
PANEL OVERFLOW that an emptied set brings is taken after the new notice's creation. -/
def Work.offerRecord (w : Work) : Work :=
  match w.st.arbiterPick with
  | none => w
  | some u =>
    let w1 := w.onNt fun t => { t with pendSet := t.pendSet.filter fun v => v ≠ u }
    let w2 := w1.create .admission (UserPt.pt u) (w.st.admissionPhase u) .none
    if w2.st.nt.pendSet = [] then w2.setSystem panelOverflow false else w2

/-- R30: a retirement; a freed user record is offered to the arbiter in the same event. -/
def Work.retire (w : Work) (n : Notice) : Work :=
  let w1 := w.remove n true
  if (userOf n.point).isSome then w1.offerRecord else w1

/-- R57, R58, R61: a raise of a user point; one that would create a notice in a full table makes the point pending. (A host
RAISE that would is refused before it is delivered, R59.) -/
def Work.raiseUser (w : Work) (kind : RaiseKind) (u : UserPt) (field : NoticeField) : Work :=
  if (w.st.notice? (UserPt.pt u)).isNone && w.st.tableFull then w.pend u else w.raiseNotice kind (UserPt.pt u) field

/-! ## Clears, acks, resets, silences -/

/-- R26, R29, R62: a clear of a user point, at its notice or at its membership of the Pending Set. -/
def Work.clearUser (w : Work) (u : UserPt) : Work :=
  match w.st.notice? (UserPt.pt u) with
  | none => if (w.st.pointRec u).cls = .indication then w.withdraw fun v => v = u else w
  | some n =>
    if (w.st.pointRec u).cls = .indication then w.retire n
    else
      match n.phase with
      | .alert => w.change n.point fun m => { m with phase := .fleeting }
      | .standing =>
        if (w.st.pointRec u).seq = .auto then w.retire n else w.change n.point fun m => { m with phase := .returned }
      | .fleeting | .returned => w

/-- R27: an acknowledged notice stays live in a phase; its first-out flag with the marker, its silenced flag and its realert
countdown go. -/
def Work.acked (w : Work) (n : Notice) (phase : Phase) : Work :=
  (w.dropMarker n).change n.point fun m =>
    { m with phase := phase, firstOut := false, silenced := false, realert := none }

/-- R27, R29: an ack at a point's notice. -/
def Work.ack (w : Work) (p : Pt) : Work :=
  match w.st.notice? p with
  | none => w
  | some n =>
    if w.st.classOf p = .indication then w
    else
      match n.phase with
      | .alert => w.acked n .standing
      | .standing => w
      | .fleeting => if w.st.seqOf p = .manual then w.acked n .returned else w.retire n
      | .returned => if w.st.seqOf p = .ringback then w.retire n else w

/-- R28, R29: a reset at a point's notice. -/
def Work.resetAt (w : Work) (p : Pt) : Work :=
  match w.st.notice? p with
  | none => w
  | some n =>
    if n.phase = .returned ∧ w.st.classOf p ≠ .indication ∧ w.st.seqOf p ≠ .auto then w.retire n else w

/-- R42: the silenced flag of a sounding notice is set; in ALERT or FLEETING its realert countdown starts when the setting is
non-zero. -/
def Work.silenceAt (w : Work) (p : Pt) : Work :=
  let minutes := w.st.snd.realertMin
  w.change p fun m =>
    { m with
      silenced := true
      realert := if m.phase.unseen ∧ minutes ≠ 0 then some (Countdown.start (minutes * 60)) else m.realert }

/-- R42, R125: a silence event: every sounding notice, ascending, and the end of a running chirp burst. -/
def Work.silenceAll (w : Work) : Work :=
  ((w.st.soundingScope).foldl Work.silenceAt w).onState fun s => s.withSnd { s.snd with chirp := none }

/-- R23: an ack delivered to each point of a scope in turn. -/
def Work.ackAll (w : Work) (scope : List Pt) : Work := scope.foldl Work.ack w

/-- R23: a reset delivered to each point of a scope in turn. -/
def Work.resetAll (w : Work) (scope : List Pt) : Work := scope.foldl Work.resetAt w

/-! ## Stale, chattering, re-annunciation -/

/-- R46: the stale flag of a notice takes a value, one change to the record if it differs. -/
def Work.setStale (v : Bool) (w : Work) (p : Pt) : Work :=
  match w.st.notice? p with
  | some n => if n.stale = v then w else w.change p fun m => { m with stale := v }
  | none => w

/-- R47: the chattering flag of a notice takes a value, one change to the record if it differs. -/
def Work.setChattering (v : Bool) (w : Work) (p : Pt) : Work :=
  match w.st.notice? p with
  | some n => if n.chattering = v then w else w.change p fun m => { m with chattering := v }
  | none => w

/-- R83: re-annunciation of a notice that enters the presented view; one in STANDING or RETURNED is not re-annunciated. -/
def Work.reannounce (w : Work) (p : Pt) : Work :=
  match w.st.notice? p with
  | none => w
  | some n =>
    if n.phase.unseen then
      let w1 := if n.silenced then w.change p fun m => { m with silenced := false, realert := none } else w
      if n.phase = .alert then w1.alertShown p else w1.flag .newAlert
    else w

/-- R75 step 3, R81: a notice whose withholding by one cause has ended returns to view if no other cause withholds it. -/
def Work.returnToView (w : Work) (p : Pt) : Work := if w.st.withheld p then w else w.reannounce p

/-- R81, R84: the children that a parent's clear released, ascending. -/
def Work.releaseAll (w : Work) (children : List Pt) : Work := children.foldl Work.returnToView w

/-! ## Conditions of user points -/

/-- R5, R6, R81: the condition of a user point takes a value from its line, the host's CLEAR or a configuration write. A
changed value is delivered as an edge if `edge` asks it and the Point Table delivers (R6); then, in RUN, a clear releases the
children that had live notices when the condition changed (log 21). -/
def Work.setUser (w : Work) (u : UserPt) (v : Bool) (edge : Bool) : Work :=
  if w.st.active (UserPt.pt u) = v then w
  else
    let children := if v then [] else w.st.liveChildren u
    let w1 := w.putCond (UserPt.pt u) v
    let w2 :=
      if edge && w1.st.delivers (UserPt.pt u) then (if v then w1.raiseUser .line u .none else w1.clearUser u) else w1
    if w2.st.ctl.mode = .run then w2.releaseAll children else w2

/-! ## Records of lines and keys -/

/-- A line record takes a new value. -/
def State.putLine (s : State) (l : LineNo) (r : LineRec) : State :=
  s.withLq { s.lq with lines := s.lq.lines.set l.val r }

/-- A key record takes a new value. -/
def State.putKey (s : State) (k : KeyNo) (r : KeyRec) : State :=
  s.withKp { s.kp with keys := s.kp.keys.set k.val r }

end Sys2Proof.Machine
end

