-- ==== Sys2Proof/Machine/Panel.lean ====
section
/-! DEFINITION. Presentation (Chapter 8): the text of a frame, composition and the composer, the window with its anchoring,
scan-out, and `settle`, the end of every event that can change what the operator sees or hears. -/

namespace Sys2Proof.Machine

/-! ## Text -/

/-- The character of a decimal digit. -/
def digit (n : Nat) : Byte := BitVec.ofNat 8 (0x30 + n % 10)

/-- A number in decimal without leading zeros, to at most `fuel + 1` digits. -/
def decimal : Nat → Nat → Text
  | 0, n => [digit n]
  | fuel + 1, n => if n < 10 then [digit n] else decimal fuel (n / 10) ++ [digit n]

/-- R149: a count in two digits, "99" above 99. -/
def twoDigits (n : Nat) : Text := [digit (min n 99 / 10), digit (min n 99)]

/-- A text padded with spaces, or cut, to a number of cells, left-aligned. -/
def padRight (cells : Nat) (t : Text) : Text := (t ++ List.replicate cells Config.space).take cells

/-- A text padded with spaces to a number of cells, right-aligned. -/
def padLeft (cells : Nat) (t : Text) : Text := List.replicate (cells - t.length) Config.space ++ t

/-- R147: a VALUE in signed decimal. -/
def signedDecimal (v : BitVec 16) : Text :=
  if v.msb then 0x2D :: decimal 4 (65536 - v.toNat) else decimal 4 v.toNat

/-- R1, R147: the label as the panel shows it: "POINT " and three digits in place of an empty one. -/
def State.shownLabel (s : State) (p : Pt) : Text :=
  match s.labelOf p with
  | [] => Config.pointWord ++ [digit (p.val / 100), digit (p.val / 10), digit p.val]
  | c :: rest => c :: rest

/-- R148: the glyph of a notice's marker. -/
def Notice.marker (n : Notice) : Byte :=
  if n.stale then 0x3F
  else if n.chattering then 0x23
  else
    match n.phase with
    | .alert => 0x21
    | .fleeting => 0x7E
    | .returned => 0x3C
    | .standing => Config.space

/-- R147: cells 17 to 19 of a notice line without a field. -/
def countCells (count : Nat) : Text :=
  if count = 1 then List.replicate 3 Config.space
  else if count < 100 then 0x78 :: padRight 2 (decimal 1 count)
  else [0x78, 0x2B, 0x2B]

/-- R147: a notice line. -/
def noticeLine (n : Notice) (label : Text) : Text :=
  match n.field with
  | .none => n.marker :: padRight 16 label ++ countCells n.count
  | .value v => n.marker :: padRight 13 label ++ padLeft 6 (signedDecimal v)
  | .text t => n.marker :: padRight 13 label ++ padRight 6 t

/-! ## Composition -/

/-- R143: the window size L. -/
def LineMode.windowSize : LineMode → Nat
  | .fourLine => 3
  | .twoLine => 2

/-- R143: the limit of the window top. -/
def State.topLimit (s : State) : Nat := s.presented.length - s.pres.lineMode.windowSize

/-- The notices of the window: those at places t to t + L - 1 of the presented view (R147). -/
def State.windowNotices (s : State) : List Notice :=
  (s.presented.drop s.pres.top).take s.pres.lineMode.windowSize

/-- R153: the snapshot of everything a frame will show. -/
def State.snapshot (s : State) : Snapshot :=
  { mode := s.ctl.mode, lineMode := s.pres.lineMode, top := s.pres.top,
    rows := s.windowNotices.map fun n => (n, s.shownLabel n.point),
    unack := (s.presented.filter fun n => n.phase.unack).length, presented := s.presented.length,
    shelfCount := s.shelf.length, overflow := !s.nt.pendSet.isEmpty, message := s.pres.message }

/-- R149: the status line. -/
def Snapshot.statusLine (c : Snapshot) : Text :=
  [0x55] ++ twoDigits c.unack ++ [Config.space, 0x50] ++ twoDigits c.presented ++ [Config.space, 0x53] ++
    twoDigits c.shelfCount ++ [Config.space, if c.overflow then 0x4F else Config.space, Config.space] ++
    (if c.presented = 0 then [0x30, 0x30] else twoDigits (c.top + 1)) ++ [0x2F] ++ twoDigits c.presented ++
    [if 0 < c.top then 0x5E else Config.space]

/-- R147: notice row i, blank when no notice has its place. -/
def Snapshot.row (c : Snapshot) (i : Nat) : Vector Byte 20 :=
  match c.rows[i]? with
  | some (n, label) => textRow (noticeLine n label)
  | none => blankRow

/-- R148: the marker attribute of notice row i. -/
def Snapshot.mark (c : Snapshot) (i : Nat) : Pattern :=
  match c.rows[i]? with
  | some (n, _) => n.pattern
  | none => .steady

/-- R147 to R151: the frame that a snapshot composes. -/
def Snapshot.frame (c : Snapshot) : Frame :=
  match c.mode, c.lineMode with
  | .config, _ => configScreen
  | .run, .fourLine =>
    { cells := #v[c.row 0, c.row 1, c.row 2,
        if c.presented = 0 ∧ c.message ≠ [] then textRow c.message else textRow c.statusLine],
      marks := #v[c.mark 0, c.mark 1, c.mark 2, .steady] }
  | .run, .twoLine =>
    let message := c.presented = 0 ∧ c.message ≠ []
    { cells := #v[if message then textRow c.message else c.row 0, c.row 1, blankRow, blankRow],
      marks := #v[if message then .steady else c.mark 0, c.mark 1, .steady, .steady] }

/-- R153: a request at the composer; a composition that starts takes its snapshot in the same event. -/
def State.requestComposition (s : State) : State :=
  match s.pres.composer with
  | .idle | .ready => s.withPres { s.pres with composer := .composing s.snapshot }
  | .composing _ => s.withPres { s.pres with dirty := true }

/-! ## The window -/

/-- R143: the anchor is set to the point of the notice at the window top, or to none when the view is empty. -/
def State.setAnchor (s : State) : State :=
  s.withPres { s.pres with anchor := s.presented[s.pres.top]?.map (·.point) }

/-- R56, R84, R144: the lowest presented place among the ALERT notices that the event put into ALERT or re-annunciated. -/
def State.lowestAlertPlace (s : State) (alerts : List Pt) : Option Nat :=
  s.presented.findIdx? fun n => n.phase = .alert && alerts.contains n.point

/-- R144, step 1: the window top follows the anchor. -/
def State.followedTop (s : State) : Nat :=
  match s.pres.anchor with
  | some a => (s.presented.findIdx? fun n => n.point = a).getD s.pres.top
  | none => s.pres.top

/-- R144: follow, clamp, jump. -/
def State.anchoredTop (s : State) (alerts : List Pt) : Nat :=
  let t := min s.followedTop s.topLimit
  match s.lowestAlertPlace alerts with
  | some p => if p < t then 0 else t
  | none => t

/-- R144, R145: anchoring, carried out on a notification of a change to the presented view. -/
def State.anchorWindow (s : State) (alerts : List Pt) : State :=
  let t := s.anchoredTop alerts
  let timer :=
    if s.pres.top = 0 ∧ 0 < t ∧ s.pres.scrollTimer = none then some (Countdown.start s.pres.scrollHold)
    else s.pres.scrollTimer
  (s.withPres { s.pres with top := t, scrollTimer := timer }).setAnchor

/-- R114, R143, R145: a scroll step. -/
def State.scrollStep (s : State) (up : Bool) : State :=
  let t := if up then s.pres.top - 1 else if s.pres.top < s.topLimit then s.pres.top + 1 else s.pres.top
  (s.withPres { s.pres with top := t, scrollTimer := some (Countdown.start s.pres.scrollHold) }).setAnchor

/-! ## The end of an event -/

/-- R55, R56: what of the presented view counts as its change: which notices, in which order, in which phase and at which
level (log 12). -/
def State.viewShape (s : State) : List (Pt × Phase × Nat) := s.presented.map fun n => (n.point, n.phase, n.level)

/-- R36: of a record, what a change to it shows in: all but the realert countdown, which is no change in itself, and the arrival
number, which renumbering moves without a change and every other event only together with the phase or the raise count. -/
def Notice.content (n : Notice) : Notice := { n with realert := none, arrival := 0 }

/-- R152: the records of the window, in what a change to one shows in. -/
def State.windowShape (s : State) : List Notice := s.windowNotices.map Notice.content

/-- R123: an event leaves a level-1 notice in ALERT and sounding. -/
def State.chirpTrigger (s : State) (p : Pt) : Bool :=
  s.nt.notices.any fun n => n.point = p && n.level = 1 && n.phase = .alert && s.sounding n

/-- R123, R124: the chirp burst after an event with these candidates for a trigger. -/
def State.chirpAfter (s : State) (candidates : List Pt) : Option Nat :=
  if s.steadyPattern.isSome then none
  else if s.snd.chirp.isSome then s.snd.chirp
  else if candidates.any s.chirpTrigger then some 0
  else none

/-- R152: whether an event requests a composition. -/
def compositionDue (before after : State) : Bool :=
  before.viewShape ≠ after.viewShape || before.windowShape ≠ after.windowShape || before.pres.top ≠ after.pres.top ||
    (after.pres.lineMode = .fourLine &&
      (before.shelf.length ≠ after.shelf.length || before.nt.pendSet.isEmpty ≠ after.nt.pendSet.isEmpty))

/-- The end of an event: in RUN one notification of a change to the presented view, with its anchoring (R56, R144); one
request to the composer if any cause of R152 arose; the chirp burst (R123, R124). -/
def settle (before : State) (w : Work) : State :=
  let s1 :=
    if (w.notify || before.viewShape ≠ w.st.viewShape) && w.st.ctl.mode = .run then w.st.anchorWindow w.alerts else w.st
  let s2 := if w.notify || w.compose || compositionDue before s1 then s1.requestComposition else s1
  s2.withSnd { s2.snd with chirp := s2.chirpAfter (w.alerts ++ w.chirps) }

/-- An event of the part that is no request: the operations on the state as it stands, then the end of the event. -/
def State.event (s : State) (f : Work → Work) : State := settle s (f s.work)

/-! ## Scan-out -/

/-- R139, R140: whether a dot of the frame is lit, before orientation. Column x, row y of the NORMAL panel. The sixth column
and the eighth row of a cell are dark, and code 0x20 draws an empty cell; the other dots are the character generator's. -/
def Frame.dot (f : Frame) (step : Fin 8) (x : Fin 120) (y : Fin 32) : Bool :=
  let r : Fin 4 := ⟨y.val / 8, by omega⟩
  let c : Fin 20 := ⟨x.val / 6, by omega⟩
  let code := (f.cells.get r).get c
  (x.val % 6 < 5 && y.val % 8 < 7 && code ≠ Config.space && Config.glyph code (x.val % 6) (y.val % 8)) &&
    (c.val ≠ 0 || (f.marks.get r).litIn step)

/-- R140: the rows of dots that a line mode shows. -/
def LineMode.shownRows : LineMode → Nat
  | .fourLine => 32
  | .twoLine => 16

/-- R140, R141, R116: whether the panel lights the dot at segment x and common y. In reset the panel is blank; commons that
the line mode leaves undriven are dark; a running lamp test lights every driven dot, and so does the frame in which it ended
(log 17). -/
def State.panelDot (s : State) (x : Fin 120) (y : Fin 32) : Bool :=
  let rows := s.pres.scan.lineMode.shownRows
  if s.inReset || rows ≤ y.val then false
  else if s.kp.testRunning || s.pres.scan.allLit then true
  else
    match s.pres.scan.orient with
    | .normal => s.pres.front.dot s.pres.scan.step x y
    | .rotated =>
      s.pres.front.dot s.pres.scan.step ⟨119 - x.val, by omega⟩ ⟨rows - 1 - y.val, by
        have : rows ≤ 32 := by unfold rows; cases s.pres.scan.lineMode <;> decide
        omega⟩

end Sys2Proof.Machine
end

