-- ==== Sys2Proof/Machine/Operands.lean ====
section
/-! DEFINITION. The payloads of requests and replies (R179, R182, R183): every enumerated field's codes, every request's
layout read into its arguments with the range checks that answer BAD_ARGUMENT, and the layouts written back. -/

namespace Sys2Proof.Machine

/-! ## Fields of a payload (R179) -/

/-- A number of two bytes, most significant byte first. -/
def be16 (n : Nat) : List Byte := [BitVec.ofNat 8 (n / 256), BitVec.ofNat 8 n]

/-- A number of one byte. -/
def byteOf (n : Nat) : Byte := BitVec.ofNat 8 n

/-- A field that can be NONE: 0xFF for NONE. -/
def optByte {n : Nat} (o : Option (Fin n)) : Byte :=
  match o with
  | some i => byteOf i.val
  | none => 0xFF

/-- A field that numbers one of n things. -/
def parseFin (n : Nat) (b : Byte) : Option (Fin n) := if h : b.toNat < n then some ⟨b.toNat, h⟩ else none

/-- A field that numbers one of n things or is NONE. -/
def parseOptFin (n : Nat) (b : Byte) : Option (Option (Fin n)) := if b = 0xFF then some none else (parseFin n b).map some

/-- A yes/no field. -/
def parseBool (b : Byte) : Option Bool := if b = 0 then some false else if b = 1 then some true else none

/-- A field with a range. -/
def parseRange (lo hi : Nat) (b : Byte) : Option Nat := if lo ≤ b.toNat ∧ b.toNat ≤ hi then some b.toNat else none

/-- A character of a text: 0x20 to 0x7E. -/
def printable (b : Byte) : Bool := 0x20 ≤ b.toNat && b.toNat ≤ 0x7E

/-- A text of a bounded length. -/
def parseText (lo hi : Nat) (t : List Byte) : Option Text :=
  if lo ≤ t.length ∧ t.length ≤ hi ∧ t.all printable then some t else none

def Mode.code : Mode → Byte
  | .config => 0
  | .run => 1

def PointClass.code : PointClass → Byte
  | .alarm => 0
  | .caution => 1
  | .indication => 2

def PointClass.ofCode (b : Byte) : Option PointClass :=
  if b = 0 then some .alarm else if b = 1 then some .caution else if b = 2 then some .indication else none

def Sequence.code : Sequence → Byte
  | .auto => 0
  | .manual => 1
  | .ringback => 2

def Sequence.ofCode (b : Byte) : Option Sequence :=
  if b = 0 then some .auto else if b = 1 then some .manual else if b = 2 then some .ringback else none

def Phase.code : Phase → Byte
  | .alert => 0
  | .standing => 1
  | .fleeting => 2
  | .returned => 3

def Origin.code : Origin → Byte
  | .line l => byteOf l.val
  | .link => 0x80
  | .system => 0x81

def LineMode.code : LineMode → Byte
  | .fourLine => 0
  | .twoLine => 1

def LineMode.ofCode (b : Byte) : Option LineMode :=
  if b = 0 then some .fourLine else if b = 1 then some .twoLine else none

def Orientation.code : Orientation → Byte
  | .normal => 0
  | .rotated => 1

def Orientation.ofCode (b : Byte) : Option Orientation :=
  if b = 0 then some .normal else if b = 1 then some .rotated else none

def Polarity.code : Polarity → Byte
  | .normal => 0
  | .inverted => 1

def Polarity.ofCode (b : Byte) : Option Polarity :=
  if b = 0 then some .normal else if b = 1 then some .inverted else none

def LineState.code : LineState → Byte
  | .quiet => 0
  | .rising => 1
  | .active => 2
  | .falling => 3

def Hold.code : Hold → Byte
  | .none => 0
  | .chatter => 1

def OutMode.code : OutMode → Byte
  | .off => 0
  | .unack => 1
  | .active => 2
  | .horn => 3
  | .group => 4
  | .system => 5
  | .host => 6

def OutMode.ofCode (b : Byte) : Option OutMode :=
  if b = 0 then some .off
  else if b = 1 then some .unack
  else if b = 2 then some .active
  else if b = 3 then some .horn
  else if b = 4 then some .group
  else if b = 5 then some .system
  else if b = 6 then some .host
  else none

def HornPattern.code : HornPattern → Byte
  | .silent => 0
  | .chirp => 1
  | .ringbackTone => 2
  | .beat => 3
  | .pulse => 4
  | .continuous => 5

def Supervision.code : Supervision → Byte
  | .off => 0
  | .running => 1
  | .expired => 2

/-- R161: the codes of the results. -/
def Result.code : Result → Byte
  | .ok => 0x00
  | .refreshed => 0x01
  | .tableFull => 0x02
  | .unknownKind => 0x03
  | .badLength => 0x04
  | .badArgument => 0x05
  | .wrongMode => 0x06
  | .noNotice => 0x07
  | .notShelved => 0x08
  | .sourceConflict => 0x09
  | .pointLive => 0x0A
  | .shelfFull => 0x0B
  | .notPermitted => 0x0C
  | .groupDisabled => 0x0D
  | .badParent => 0x0E
  | .invalidConfig => 0x0F

/-! ## WRITE_POINT -/

/-- R180, R182: a WRITE_POINT payload is 8 + k bytes long, k its eighth byte, and at most 40. -/
def pointLengthOk (pl : List Byte) : Bool :=
  match pl[7]? with
  | some k => pl.length = 8 + k.toNat && pl.length ≤ 40
  | none => false

/-- R10, R182: the arguments of WRITE_POINT. -/
def parsePoint (pl : List Byte) : Option (UserPt × PointRec) :=
  match pl with
  | p :: c :: q :: g :: t :: y :: m :: _ :: chars => do
    let u ← parseFin 128 p
    let cls ← PointClass.ofCode c
    let seq ← Sequence.ofCode q
    let group ← parseFin 16 g
    let tile ← parseOptFin 48 t
    let parent ← parseOptFin 128 y
    let limit ← parseRange 0 240 m
    let label ← parseText 0 16 chars
    pure (u, { label := label, cls := cls, seq := seq, group := group, tile := tile, parent := parent, shelveLimit := limit })
  | _ => none

/-- R182: the payload that writes a point record. -/
def pointPayload (u : UserPt) (r : PointRec) : List Byte :=
  [byteOf u.val, r.cls.code, r.seq.code, byteOf r.group.val, optByte r.tile, optByte r.parent, byteOf r.shelveLimit,
   byteOf r.label.length] ++ r.label

/-! ## WRITE_GROUP -/

/-- What WRITE_GROUP carries (R14). -/
structure GroupWrite where
  group : GroupNo
  level : Nat
  enabled : Bool
  firstOutEnable : Bool
  deriving DecidableEq, Repr

/-- R14, R179, R182: the arguments of WRITE_GROUP. -/
def parseGroup (pl : List Byte) : Option GroupWrite :=
  match pl with
  | [g, l, e, f] => do
    let group ← parseFin 16 g
    let level ← parseRange 1 4 l
    let enabled ← parseBool e
    let first ← parseBool f
    pure { group := group, level := level, enabled := enabled, firstOutEnable := first }
  | _ => none

/-- R182: the payload that carries a group write. -/
def GroupWrite.payload (a : GroupWrite) : List Byte :=
  [byteOf a.group.val, byteOf a.level, bit a.enabled, bit a.firstOutEnable]

/-! ## WRITE_LINE -/

/-- What WRITE_LINE carries (R88). -/
structure LineWrite where
  line : LineNo
  bound : Option UserPt
  polarity : Polarity
  qualifyOn : Nat
  qualifyOff : Nat
  chatterLimit : Nat
  deriving DecidableEq, Repr

/-- R88: a chatter limit is 0 or 3 to 15. -/
def parseLimit (b : Byte) : Option Nat := if b = 0 then some 0 else parseRange 3 15 b

/-- R88, R182: the arguments of WRITE_LINE. -/
def parseLine (pl : List Byte) : Option LineWrite :=
  match pl with
  | [l, b, p, n, f, c] => do
    let line ← parseFin 32 l
    let bound ← parseOptFin 128 b
    let polarity ← Polarity.ofCode p
    let on ← parseRange 1 250 n
    let off ← parseRange 1 250 f
    let limit ← parseLimit c
    pure { line := line, bound := bound, polarity := polarity, qualifyOn := on, qualifyOff := off, chatterLimit := limit }
  | _ => none

/-- R182: the payload that carries a line write. -/
def LineWrite.payload (a : LineWrite) : List Byte :=
  [byteOf a.line.val, optByte a.bound, a.polarity.code, byteOf a.qualifyOn, byteOf a.qualifyOff, byteOf a.chatterLimit]

/-! ## WRITE_PANEL -/

/-- The seven panel settings (R187). -/
structure PanelSettings where
  lineMode : LineMode
  orient : Orientation
  floor : Nat
  realertMin : Nat
  supervision : Nat
  scrollHold : Nat
  window : Nat
  deriving DecidableEq, Repr

/-- R182, R187: the arguments of WRITE_PANEL. -/
def parsePanel (pl : List Byte) : Option PanelSettings :=
  match pl with
  | [m, o, f, r, s, h, w] => do
    let mode ← LineMode.ofCode m
    let orient ← Orientation.ofCode o
    let floor ← parseRange 1 5 f
    let realert ← parseRange 0 60 r
    let hold ← parseRange 5 120 h
    let window ← parseRange 10 250 w
    pure { lineMode := mode, orient := orient, floor := floor, realertMin := realert, supervision := s.toNat,
           scrollHold := hold, window := window }
  | _ => none

/-- R182, R183: the panel settings in the order WRITE_PANEL carries them and READ_PANEL reports them. -/
def PanelSettings.payload (a : PanelSettings) : List Byte :=
  [a.lineMode.code, a.orient.code, byteOf a.floor, byteOf a.realertMin, byteOf a.supervision, byteOf a.scrollHold,
   byteOf a.window]

/-- The panel settings as they stand. -/
def State.panelSettings (s : State) : PanelSettings :=
  { lineMode := s.pres.lineMode, orient := s.pres.orient, floor := s.snd.floor, realertMin := s.snd.realertMin,
    supervision := s.link.supSetting, scrollHold := s.pres.scrollHold, window := s.lq.window }

/-! ## WRITE_OUTPUT and SET_OUTPUT -/

/-- What WRITE_OUTPUT carries (R128). -/
structure OutWrite where
  line : OutNo
  mode : OutMode
  param : Nat
  inverted : Bool
  deriving DecidableEq, Repr

/-- R128: the parameter that a mode takes. -/
def OutMode.paramOk (m : OutMode) (param : Nat) : Bool :=
  match m with
  | .unack | .active => 1 ≤ param && param ≤ 4
  | .group => param ≤ 15
  | .off | .horn | .system | .host => param = 0

/-- R128, R182: the arguments of WRITE_OUTPUT. -/
def parseOut (pl : List Byte) : Option OutWrite :=
  match pl with
  | [l, m, p, i] => do
    let line ← parseFin 4 l
    let mode ← OutMode.ofCode m
    let inverted ← parseBool i
    if mode.paramOk p.toNat then pure { line := line, mode := mode, param := p.toNat, inverted := inverted } else none
  | _ => none

/-- R182: the payload that carries an output write. -/
def OutWrite.payload (a : OutWrite) : List Byte :=
  [byteOf a.line.val, a.mode.code, byteOf a.param, bit a.inverted]

/-- R130, R182: the arguments of SET_OUTPUT. -/
def parseSetOut (pl : List Byte) : Option (OutNo × Bool) :=
  match pl with
  | [l, v] => do
    let line ← parseFin 4 l
    let value ← parseBool v
    pure (line, value)
  | _ => none

/-! ## RAISE and the scopes -/

/-- R179, R182: a field kind with its data; a field kind that does not match the data is malformed. -/
def parseField (kind : Byte) (data : List Byte) : Option NoticeField :=
  if kind = 0 then (if data = [] then some .none else none)
  else if kind = 1 then
    match data with
    | [hi, lo] => some (.value (BitVec.ofNat 16 (hi.toNat * 256 + lo.toNat)))
    | _ => none
  else if kind = 2 then (parseText 1 6 data).map .text
  else none

/-- R7, R182: the arguments of RAISE. -/
def parseRaise (pl : List Byte) : Option (UserPt × NoticeField) :=
  match pl with
  | p :: kind :: data => do
    let u ← parseFin 128 p
    let field ← parseField kind data
    pure (u, field)
  | _ => none

/-- R179: a notice's field as a payload carries it. -/
def NoticeField.bytes : NoticeField → List Byte
  | .none => [0]
  | .value v => 1 :: be16 v.toNat
  | .text t => 2 :: t

/-- R33: what a field can be: a VALUE of 16 bits, a TEXT of one to six printable characters, or NONE. -/
def NoticeField.ok : NoticeField → Bool
  | .none | .value _ => true
  | .text t => 1 ≤ t.length && t.length ≤ 6 && t.all printable

/-- R182: the payload of RAISE. -/
def raisePayload (u : UserPt) (field : NoticeField) : List Byte := byteOf u.val :: field.bytes

/-- R190: the scope of ACKNOWLEDGE and RESET. -/
inductive Scope
  | point (p : Pt)
  | group (g : GroupNo)
  | all
  deriving DecidableEq, Repr

/-- R190, R182: a scope with its target. -/
def parseScope (pl : List Byte) : Option Scope :=
  match pl with
  | [k, t] =>
    if k = 0 then (parseFin 130 t).map .point
    else if k = 1 then (parseFin 16 t).map .group
    else if k = 2 then (if t = 0 then some .all else none)
    else none
  | _ => none

/-- R182: the payload of a scope. -/
def Scope.payload : Scope → List Byte
  | .point p => [0, byteOf p.val]
  | .group g => [1, byteOf g.val]
  | .all => [2, 0]

/-! ## One number, a number and a value -/

/-- R182: a payload of one byte that numbers one of n things. -/
def parseOne (n : Nat) (pl : List Byte) : Option (Fin n) :=
  match pl with
  | [p] => parseFin n p
  | _ => none

/-- R72, R182: the arguments of SHELVE; minutes 0 or above 240 are out of range (R72 step 3). -/
def parseShelve (pl : List Byte) : Option (Pt × Nat) :=
  match pl with
  | [p, m] => do
    let point ← parseFin 130 p
    let minutes ← parseRange 1 240 m
    pure (point, minutes)
  | _ => none

/-- R195: the filters of LIST. -/
inductive ListFilter
  | all
  | presented
  | unack
  deriving DecidableEq, Repr

/-- R179, R195: the arguments of LIST. -/
def parseList (pl : List Byte) : Option (Nat × ListFilter) :=
  match pl with
  | [s, f] =>
    if f = 0 then some (s.toNat, .all)
    else if f = 1 then some (s.toNat, .presented)
    else if f = 2 then some (s.toNat, .unack)
    else none
  | _ => none

/-- R188: the key lock mask; bits 6 and 7 are no keys. -/
def parseLock (pl : List Byte) : Option (BitVec 6) :=
  match pl with
  | [m] => if m.toNat < 64 then some (m.setWidth 6) else none
  | _ => none

/-- R177, R182: the mask of CLEAR_EVENTS and EVENT_ENABLE; every value is taken. -/
def parseMask (pl : List Byte) : Option Byte :=
  match pl with
  | [m] => some m
  | _ => none

end Sys2Proof.Machine
end

