-- ==== Sys2Proof/Machine/Frames.lean ====
section
/-! DEFINITION. The frames of the host link and the run of a request: bytes from bits and back (R156), the CRC (R162), request and
reply frames (R160, R161), and how a request row answers and takes effect (R165, R180). -/

namespace Sys2Proof.Machine

/-- R156: one level of MOSI shifted into a byte, so that the first of eight is the most significant bit. -/
def shiftIn (r : Byte) (level : Bool) : Byte := (r <<< 1) ||| (BitVec.ofBool level).setWidth 8

/-- R156: the whole bytes on MOSI, each completed by an eighth rising edge of SCK; the bits after the last are discarded. -/
def wholeBytes (mosi : List Bool) : List Byte :=
  (List.range (mosi.length / 8)).map fun i => ((mosi.drop (8 * i)).take 8).foldl shiftIn 0

/-- R162: one of the eight shifts of the CRC register. -/
def crcShift (r : Byte) : Byte := if r.msb then (r <<< 1) ^^^ 0x2F else r <<< 1

/-- R162: the register after one byte. -/
def crcByte (r b : Byte) : Byte :=
  crcShift (crcShift (crcShift (crcShift (crcShift (crcShift (crcShift (crcShift (r ^^^ b))))))))

/-- R162: the CRC-8 of a sequence of bytes. -/
def crc8 (bytes : List Byte) : Byte := bytes.foldl crcByte 0xFF

/-- A sequence of bytes with its CRC (R160, R161). -/
def withCrc (bytes : List Byte) : List Byte := bytes ++ [crc8 bytes]

/-- R160: the bytes of a request frame. -/
def requestFrame (kind tag : Byte) (payload : List Byte) : List Byte :=
  withCrc ([kind, tag, byteOf payload.length] ++ payload)

/-- R161: the bytes of a reply frame. -/
def ReplyFrame.bytes (f : ReplyFrame) : List Byte :=
  withCrc ([f.result.code, f.tag, byteOf f.payload.length] ++ f.payload)

/-- R157: MISO byte i of a transaction: the status byte, then the reply frame if it carries one, then 0x00. -/
def Transaction.miso (t : Transaction) (i : Nat) : Byte :=
  match i with
  | 0 => t.status
  | i + 1 =>
    match t.reply with
    | some f => f.bytes[i]?.getD 0
    | none => 0

/-- R156, R157: the bit of MISO in a transaction after a number of falling edges of SCK: the first bit stands at the CSN fall,
and bytes go most significant bit first. -/
def Transaction.misoBit (t : Transaction) (falls : Nat) : Bool := (t.miso (falls / 8)).getLsbD (7 - falls % 8)

/-- R156, R201, R202: what MISO carries after a number of falling edges of SCK since the CSN fall, none for high impedance: in
reset and while CSN is high it is at high impedance, and so it is for the whole of a transaction whose CSN fall came inside the
hold of a SOFT_RESET. With CSN low otherwise and no transaction taken no rule says (log 28). -/
def State.misoPin (s : State) (falls : Nat) : Option Bool :=
  if s.inReset || !s.link.csnLow then none
  else
    match s.link.trans with
    | some t => some (t.misoBit falls)
    | none => if s.link.muted then none else Config.misoUntaken falls

/-- What a request's run comes to: an answer that leaves every block as it stands (a refusal, R180, or a report), or an
effect with its result code and an empty payload. -/
inductive Verdict
  | answer (r : Result) (payload : List Byte)
  | act (r : Result) (w : Work)

/-- A refusal with an empty payload (R180). -/
def Verdict.refuse (r : Result) : Verdict := .answer r []

/-- The reply of a run is kept for its placement (R165, log 2). -/
def State.recordRun (s : State) (r : Ran) : State := s.withLink { s.link with ran := some r }

/-- R165: the run of a request at the blocks, one event, and the reply it makes. Held in reset or with the oscillator
standing, no request runs (R200, R201). -/
def State.request (s : State) (kind : Byte) (payload : List Byte) (v : Verdict) : State :=
  if s.inService then
    match v with
    | .answer r reply => s.recordRun { kind := kind, request := payload, result := r, reply := reply }
    | .act r w => (settle s w).recordRun { kind := kind, request := payload, result := r, reply := [] }
  else s

/-- R180: the length stage, before every check of the kind. -/
def lengthThen (ok : Bool) (v : Verdict) : Verdict := if ok then v else .refuse .badLength

/-- R181: WRONG_MODE unless the mode is the one the request is accepted in. -/
def inMode (s : State) (m : Mode) (v : Verdict) : Verdict := if s.ctl.mode = m then v else .refuse .wrongMode

/-- R179, R180: BAD_ARGUMENT unless the payload's fields are in their ranges. -/
def withArgs {α : Type} (a : Option α) (v : α → Verdict) : Verdict :=
  match a with
  | some a => v a
  | none => .refuse .badArgument

end Sys2Proof.Machine
end

