-- ==== Sys2Proof/Machine/ConfigRequests.lean ====
section
/-! DEFINITION. The requests that write and read points, groups and lines (R1 to R19, R86 to R89, R185, R186). -/

namespace Sys2Proof.Machine

/-! ## WRITE_POINT, READ_POINT -/

/-- R2: a user point that no line binds is link-sourced. -/
def State.linkSourced (s : State) (u : UserPt) : Bool := (s.bindingLine u).isNone

/-- R11: something live refers to the point. -/
def State.pointIsLive (s : State) (u : UserPt) : Bool :=
  (s.notice? (UserPt.pt u)).isSome || s.nt.pendSet.contains u || s.shelved (UserPt.pt u)

/-- R12: giving a point this parent would break the parent structure. -/
def State.breaksParents (s : State) (u : UserPt) (parent : Option UserPt) : Bool :=
  match parent with
  | none => false
  | some y =>
    y = u || (s.pointRec y).parent.isSome ||
      (List.finRange 128).any fun z => z ≠ u && (s.pointRec z).parent = some u

/-- R1: the configuration fields of a point are replaced. -/
def State.putPoint (s : State) (u : UserPt) (r : PointRec) : State :=
  s.withPt { s.pt with points := s.pt.points.set u.val r }

/-- R13: a write accepted in RUN; a link-sourced point whose new group is disabled has its condition set CLEAR with no edge
delivered, and its children are released (R81). -/
def Work.rewritePoint (w : Work) (u : UserPt) (r : PointRec) : Work :=
  let w1 := w.onState fun s => s.putPoint u r
  if w.st.linkSourced u && !(w.st.groupRec r.group).enabled then w1.setUser u false false else w1

/-- R10 to R13, R185. -/
def writePointVerdict (s : State) (pl : List Byte) : Verdict :=
  lengthThen (pointLengthOk pl) <| withArgs (parsePoint pl) fun a =>
    match s.ctl.mode with
    | .config => .act .ok (s.work.onState fun s => s.putPoint a.1 a.2)
    | .run =>
      if s.pointIsLive a.1 then .refuse .pointLive
      else if s.breaksParents a.1 a.2.parent then .refuse .badParent
      else .act .ok (s.work.rewritePoint a.1 a.2)

/-- WRITE_POINT, kind 0x10. -/
def execWritePoint (pl : List Byte) (s : State) : Host.Outcome State Fault Refusal :=
  .next (s.request 0x10 pl (writePointVerdict s pl))

/-- R183: the group of a point as READ_POINT reports it, 16 for a system point (R3). -/
def State.reportedGroup (s : State) (p : Pt) : Byte :=
  match s.groupOf p with
  | some g => byteOf g.val
  | none => 16

/-- R1, R3: the shelve limit of a point. -/
def State.shelveLimitOf (s : State) (p : Pt) : Nat :=
  match userOf p with
  | some u => (s.pointRec u).shelveLimit
  | none => 0

/-- R18, R183, R185: what READ_POINT reports. -/
def State.pointReport (s : State) (p : Pt) : List Byte :=
  [byteOf p.val, (s.sourceOf p).code, bit (s.active p), (s.classOf p).code, (s.seqOf p).code, s.reportedGroup p,
   byteOf (s.levelOf p), optByte (s.tileOf p), optByte (s.parentOf p), byteOf (s.shelveLimitOf p),
   byteOf (s.labelOf p).length] ++ s.labelOf p

/-- READ_POINT, kind 0x11. -/
def execReadPoint (pl : List Byte) (s : State) : Host.Outcome State Fault Refusal :=
  .next <| s.request 0x11 pl <| lengthThen (pl.length = 1) <| withArgs (parseOne 130 pl) fun p =>
    .answer .ok (s.pointReport p)

/-! ## WRITE_GROUP, READ_GROUP -/

/-- R14: the three fields are stored; the marker is not written (R4). -/
def State.putGroup (s : State) (a : GroupWrite) : State :=
  s.withPt { s.pt with
    groups := s.pt.groups.set a.group.val
      { s.groupRec a.group with level := a.level, enabled := a.enabled, firstOutEnable := a.firstOutEnable } }

/-- The points of the live notices of a group, ascending. -/
def State.groupNotices (s : State) (g : GroupNo) : List Pt :=
  (s.nt.notices.filter fun n => s.groupOf n.point = some g).map (·.point)

/-- R30: the live notice of a point, if it has one, is retired. -/
def Work.retireAt (w : Work) (p : Pt) : Work :=
  match w.st.notice? p with
  | some n => w.retire n
  | none => w

/-- R15: the level of a record changes, one change to the record. -/
def Work.setLevel (level : Nat) (w : Work) (p : Pt) : Work := w.change p fun m => { m with level := level }

/-- R15: a level change rewrites every live notice of the group, ascending. -/
def Work.changeLevel (w : Work) (g : GroupNo) (level : Nat) : Work :=
  (w.st.groupNotices g).foldl (Work.setLevel level) w

/-- R16, step 3: the point is link-sourced, of the group, and ACTIVE. -/
def State.groupLinkActive (s : State) (g : GroupNo) (u : UserPt) : Bool :=
  (s.pointRec u).group = g && s.linkSourced u && s.active (UserPt.pt u)

/-- R16, step 3: link-sourced points of the group take condition CLEAR, with no edge. -/
def State.clearGroupLinks (s : State) (g : GroupNo) : State :=
  s.withPt { s.pt with
    cond := vmap (fun p v =>
      match userOf p with
      | some u => v && !s.groupLinkActive g u
      | none => v) s.pt.cond }

/-- R81: the points of the live notices whose parent is a point that step 3 of R16 is to clear. -/
def State.groupLinkChildren (s : State) (g : GroupNo) : List Pt :=
  (s.nt.notices.filter fun n => (s.parentOf n.point).any (s.groupLinkActive g)).map (·.point)

/-- R16: group disable, its four steps, with the releases of R81 after step 3. -/
def Work.disableGroup (w : Work) (g : GroupNo) : Work :=
  let w1 := w.withdraw fun u => (w.st.pointRec u).group = g
  let w2 := (w1.st.groupNotices g).foldl Work.retireAt w1
  let children := w2.st.groupLinkChildren g
  ((w2.onState fun s => s.clearGroupLinks g).releaseAll children).setMarker g none

/-- The line-bound user points with condition ACTIVE that satisfy a test, ascending (R17, R204). -/
def State.lineActive (s : State) (f : UserPt → Bool) : List UserPt :=
  (List.finRange 128).filter fun u => !s.linkSourced u && s.active (UserPt.pt u) && f u

/-- A raise of one kind for each of a list of user points, in its order (R17, R204). -/
def Work.raiseEach (kind : RaiseKind) (w : Work) (us : List UserPt) : Work :=
  us.foldl (fun w u => w.raiseUser kind u .none) w

/-- R17: group re-enable. -/
def Work.reEnableGroup (w : Work) (g : GroupNo) : Work :=
  Work.raiseEach .reEnable w (w.st.lineActive fun u => (w.st.pointRec u).group = g)

/-- R14: an accepted write stores the fields and, in RUN, acts on each change it makes. -/
def Work.writeGroup (w : Work) (a : GroupWrite) : Work :=
  let old := w.st.groupRec a.group
  let w1 := w.onState fun s => s.putGroup a
  match w.st.ctl.mode, old.enabled, a.enabled with
  | .config, _, _ => w1
  | .run, true, false => w1.disableGroup a.group
  | .run, false, true => w1.reEnableGroup a.group
  | .run, true, true => if old.level = a.level then w1 else w1.changeLevel a.group a.level
  | .run, false, false => w1

/-- R14, R185. -/
def writeGroupVerdict (s : State) (pl : List Byte) : Verdict :=
  lengthThen (pl.length = 4) <| withArgs (parseGroup pl) fun a => .act .ok (s.work.writeGroup a)

/-- WRITE_GROUP, kind 0x12. -/
def execWriteGroup (pl : List Byte) (s : State) : Host.Outcome State Fault Refusal :=
  .next (s.request 0x12 pl (writeGroupVerdict s pl))

/-- R183, R185: what READ_GROUP reports. -/
def State.groupReport (s : State) (g : GroupNo) : List Byte :=
  let r := s.groupRec g
  [byteOf g.val, byteOf r.level, bit r.enabled, bit r.firstOutEnable, optByte r.marker]

/-- READ_GROUP, kind 0x13. -/
def execReadGroup (pl : List Byte) (s : State) : Host.Outcome State Fault Refusal :=
  .next <| s.request 0x13 pl <| lengthThen (pl.length = 1) <| withArgs (parseOne 16 pl) fun g =>
    .answer .ok (s.groupReport g)

/-! ## WRITE_LINE, READ_LINE -/

/-- R91: a raw change of a line; the pairings that cannot occur change nothing (log 4). -/
def LineRec.rawChange (r : LineRec) (active : Bool) : LineRec :=
  match r.state, active with
  | .quiet, true => { r with state := .rising, qualify := r.qualifyOn }
  | .rising, false => { r with state := .quiet, qualify := 0 }
  | .active, false => { r with state := .falling, qualify := r.qualifyOff }
  | .falling, true => { r with state := .active, qualify := 0 }
  | .quiet, false | .rising, true | .active, true | .falling, false => r

/-- R97, R100: hold NONE, the window idle. -/
def LineRec.idleWindow (r : LineRec) : LineRec := { r with hold := .none, count := 0, timer := none }

/-- R88: the record that an accepted WRITE_LINE leaves. A polarity that changes before the line's first sample reverses the inactive
level that R90 compares that sample with, which is the model's choice (log 30). -/
def LineRec.written (r : LineRec) (a : LineWrite) : LineRec :=
  let r1 :=
    { r with
      bound := a.bound, polarity := a.polarity, qualifyOn := a.qualifyOn, qualifyOff := a.qualifyOff,
      chatterLimit := a.chatterLimit }
  let r2 := if r.polarity = a.polarity then r1 else { r1 with sample := !r.sample }.rawChange (!r.sample)
  if a.chatterLimit = 0 ∧ r.chatterLimit ≠ 0 then r2.idleWindow else r2

/-- A point named by a binding takes a condition, with no edge (R2, R88: the mode is CONFIG). -/
def Work.setBound (w : Work) (bound : Option UserPt) (v : Bool) : Work :=
  match bound with
  | some u => w.setUser u v false
  | none => w

/-- R2, R88: an accepted WRITE_LINE. A point that becomes link-sourced goes CLEAR, one that becomes line-bound takes the held
level; a line released by a chatter limit of 0 passes its held level on. -/
def Work.writeLine (w : Work) (a : LineWrite) : Work :=
  let old := w.st.lineRec a.line
  let new := old.written a
  let w1 := w.onState fun s => s.putLine a.line new
  if old.bound ≠ a.bound then (w1.setBound old.bound false).setBound a.bound new.held
  else if old.held ≠ new.held then w1.setBound a.bound new.held
  else w1

/-- R2, R88: the bound point of a write is bound by a different line. -/
def State.bindConflict (s : State) (a : LineWrite) : Bool :=
  match a.bound with
  | some u => (List.finRange 32).any fun l => l ≠ a.line && (s.lineRec l).bound = some u
  | none => false

/-- R88, R186. -/
def writeLineVerdict (s : State) (pl : List Byte) : Verdict :=
  lengthThen (pl.length = 6) <| inMode s .config <| withArgs (parseLine pl) fun a =>
    if s.bindConflict a then .refuse .sourceConflict else .act .ok (s.work.writeLine a)

/-- WRITE_LINE, kind 0x14. -/
def execWriteLine (pl : List Byte) (s : State) : Host.Outcome State Fault Refusal :=
  .next (s.request 0x14 pl (writeLineVerdict s pl))

/-- R89, R183, R186: what READ_LINE reports. -/
def State.lineReport (s : State) (l : LineNo) : List Byte :=
  let r := s.lineRec l
  [byteOf l.val, optByte r.bound, r.polarity.code, byteOf r.qualifyOn, byteOf r.qualifyOff, byteOf r.chatterLimit,
   bit r.sample, r.state.code, r.hold.code, bit r.qualified, bit r.held, byteOf r.count, byteOf (secondsLeft r.timer)]

/-- READ_LINE, kind 0x15. -/
def execReadLine (pl : List Byte) (s : State) : Host.Outcome State Fault Refusal :=
  .next <| s.request 0x15 pl <| lengthThen (pl.length = 1) <| withArgs (parseOne 32 pl) fun l =>
    .answer .ok (s.lineReport l)

end Sys2Proof.Machine
end

