-- ==== Sys2Proof/Machine/NoticeRequests.lean ====
section
/-! DEFINITION. The requests that drive link-sourced points and act on notices and the Shelf (R189 to R193). -/

namespace Sys2Proof.Machine

/-! ## RAISE, CLEAR -/

/-- R7: the group of a user point is enabled. -/
def State.groupEnabled (s : State) (u : UserPt) : Bool := (s.groupRec (s.pointRec u).group).enabled

/-- R7: an accepted RAISE sets the condition ACTIVE and delivers one link raise, an edge or not. -/
def Work.hostRaise (w : Work) (u : UserPt) (field : NoticeField) : Work :=
  (w.putCond (UserPt.pt u) true).raiseUser .link u field

/-- R7, R189: REFRESHED when the notice stands in ALERT or STANDING, OK when it is created or raised again. -/
def State.raiseResult (s : State) (u : UserPt) : Result :=
  match s.notice? (UserPt.pt u) with
  | some n => if n.phase = .alert ∨ n.phase = .standing then .refreshed else .ok
  | none => .ok

/-- R7, R189. -/
def raiseVerdict (s : State) (pl : List Byte) : Verdict :=
  lengthThen (2 ≤ pl.length && pl.length ≤ 8) <| inMode s .run <| withArgs (parseRaise pl) fun a =>
    if !s.linkSourced a.1 then .refuse .sourceConflict
    else if !s.groupEnabled a.1 then .refuse .groupDisabled
    else if (s.notice? (UserPt.pt a.1)).isNone && s.tableFull then .refuse .tableFull
    else .act (s.raiseResult a.1) (s.work.hostRaise a.1 a.2)

/-- RAISE, kind 0x20. -/
def execRaise (pl : List Byte) (s : State) : Host.Outcome State Fault Refusal :=
  .next (s.request 0x20 pl (raiseVerdict s pl))

/-- R8, R189. -/
def clearVerdict (s : State) (pl : List Byte) : Verdict :=
  lengthThen (pl.length = 1) <| inMode s .run <| withArgs (parseOne 128 pl) fun u =>
    if !s.linkSourced u then .refuse .sourceConflict else .act .ok (s.work.setUser u false true)

/-- CLEAR, kind 0x21. -/
def execClear (pl : List Byte) (s : State) : Host.Outcome State Fault Refusal :=
  .next (s.request 0x21 pl (clearVerdict s pl))

/-! ## ACKNOWLEDGE, RESET, SILENCE, RETIRE -/

/-- R190, R191: the points of a scope, fixed when the event is taken; `f` is what scope group and all reach. -/
def State.scopePoints (s : State) (c : Scope) (f : Notice → Bool) : List Pt :=
  match c with
  | .point p => [p]
  | .group g => s.presentedScope fun n => s.groupOf n.point = some g && f n
  | .all => s.presentedScope f

/-- R190, step 3: scope point names a point with no live notice. -/
def State.scopeEmpty (s : State) (c : Scope) : Bool :=
  match c with
  | .point p => (s.notice? p).isNone
  | .group _ | .all => false

/-- R190. -/
def acknowledgeVerdict (s : State) (pl : List Byte) : Verdict :=
  lengthThen (pl.length = 2) <| inMode s .run <| withArgs (parseScope pl) fun c =>
    if s.scopeEmpty c then .refuse .noNotice else .act .ok (s.work.ackAll (s.scopePoints c s.ackable))

/-- ACKNOWLEDGE, kind 0x22. -/
def execAcknowledge (pl : List Byte) (s : State) : Host.Outcome State Fault Refusal :=
  .next (s.request 0x22 pl (acknowledgeVerdict s pl))

/-- R111, R191: what a reset of scope all reaches among the presented notices. -/
def Notice.resettable (n : Notice) : Bool := n.phase = .returned

/-- R191. -/
def resetVerdict (s : State) (pl : List Byte) : Verdict :=
  lengthThen (pl.length = 2) <| inMode s .run <| withArgs (parseScope pl) fun c =>
    if s.scopeEmpty c then .refuse .noNotice else .act .ok (s.work.resetAll (s.scopePoints c Notice.resettable))

/-- RESET, kind 0x23. -/
def execReset (pl : List Byte) (s : State) : Host.Outcome State Fault Refusal :=
  .next (s.request 0x23 pl (resetVerdict s pl))

/-- SILENCE, kind 0x24 (R42, R125, R192). -/
def execSilence (pl : List Byte) (s : State) : Host.Outcome State Fault Refusal :=
  .next <| s.request 0x24 pl <| lengthThen (pl.length = 0) <| inMode s .run <| .act .ok s.work.silenceAll

/-- R31, R192. -/
def retireVerdict (s : State) (pl : List Byte) : Verdict :=
  lengthThen (pl.length = 1) <| inMode s .run <| withArgs (parseOne 130 pl) fun p =>
    match s.notice? p with
    | none => .refuse .noNotice
    | some n => .act .ok (s.work.retire n)

/-- RETIRE, kind 0x25. -/
def execRetire (pl : List Byte) (s : State) : Host.Outcome State Fault Refusal :=
  .next (s.request 0x25 pl (retireVerdict s pl))

/-! ## SHELVE, UNSHELVE -/

/-- R71: an entry put at its place in order of expiry, after those with the same time. -/
def insertEntry (e : ShelfEntry) : List ShelfEntry → List ShelfEntry
  | [] => [e]
  | m :: rest => if e.time.left < m.time.left then e :: m :: rest else m :: insertEntry e rest

/-- The Shelf List without the entry of a point. -/
def dropEntry (u : UserPt) (l : List ShelfEntry) : List ShelfEntry := l.filter fun e => e.point ≠ u

/-- R73: the entry of a point is set to a number of seconds, added or restarted. -/
def State.shelveFor (s : State) (u : UserPt) (seconds : Nat) : State :=
  s.withShelf (insertEntry { point := u, time := Countdown.start seconds } (dropEntry u s.shelf))

/-- R72, steps 4 and 5, and R73. -/
def shelvePermitted (s : State) (p : Pt) (minutes : Nat) : Verdict :=
  match userOf p with
  | none => .refuse .notPermitted
  | some u =>
    if (s.pointRec u).shelveLimit < minutes then .refuse .notPermitted
    else if !s.shelved p && Config.shelfEntries ≤ s.shelf.length then .refuse .shelfFull
    else .act .ok (s.work.onState fun s => s.shelveFor u (minutes * 60))

/-- R72, R193. -/
def shelveVerdict (s : State) (pl : List Byte) : Verdict :=
  lengthThen (pl.length = 2) <| inMode s .run <| withArgs (parseShelve pl) fun a => shelvePermitted s a.1 a.2

/-- SHELVE, kind 0x26. -/
def execShelve (pl : List Byte) (s : State) : Host.Outcome State Fault Refusal :=
  .next (s.request 0x26 pl (shelveVerdict s pl))

/-- R75 steps 1 and 3, R76: an entry is removed and its point's notice returns to view. -/
def Work.endShelving (w : Work) (u : UserPt) : Work :=
  (w.onState fun s => s.withShelf (dropEntry u s.shelf)).returnToView (UserPt.pt u)

/-- R76, R193: points 128 and 129 have no entry, so they are always answered NOT_SHELVED. -/
def unshelveVerdict (s : State) (pl : List Byte) : Verdict :=
  lengthThen (pl.length = 1) <| inMode s .run <| withArgs (parseOne 130 pl) fun p =>
    match s.shelfEntry? p with
    | none => .refuse .notShelved
    | some e => .act .ok (s.work.endShelving e.point)

/-- UNSHELVE, kind 0x27. -/
def execUnshelve (pl : List Byte) (s : State) : Host.Outcome State Fault Refusal :=
  .next (s.request 0x27 pl (unshelveVerdict s pl))

end Sys2Proof.Machine
end

