-- ==== Sys2Proof/Machine/ReportRequests.lean ====
section
/-! DEFINITION. The requests that report identity, status, the Notice Table, the Pending Set, the Shelf List and the
attention events (R184, R194 to R197), the two that write the events (R177), and a request of an unknown kind (R165). -/

namespace Sys2Proof.Machine

/-- A report that takes no arguments (R182): it changes nothing. -/
def plainReport (pl : List Byte) (reply : List Byte) : Verdict := lengthThen (pl.length = 0) (.answer .ok reply)

/-- R184: what IDENTIFY reports. -/
def State.identityReport (s : State) : List Byte :=
  be16 Config.vendorCode ++ be16 Config.partCode ++ [byteOf Config.revision, s.ctl.mode.code]

/-- IDENTIFY, kind 0x01. -/
def execIdentify (pl : List Byte) (s : State) : Host.Outcome State Fault Refusal :=
  .next (s.request 0x01 pl (plainReport pl s.identityReport))

/-- R184: what STATUS reports. -/
def State.statusReport (s : State) : List Byte :=
  [s.ctl.mode.code, byteOf s.userCount, byteOf s.nt.pendSet.length, byteOf s.shelf.length] ++ be16 s.nt.rev.toNat ++
    [s.hornPattern.code, s.link.sup.code, s.link.flags]

/-- STATUS, kind 0x02. -/
def execStatus (pl : List Byte) (s : State) : Host.Outcome State Fault Refusal :=
  .next (s.request 0x02 pl (plainReport pl s.statusReport))

/-! ## LOOKUP, LIST -/

/-- R70, R183: a point's shelf remaining, 0 when it has no entry. -/
def State.shelfLeft (s : State) (p : Pt) : Nat :=
  match s.shelfEntry? p with
  | some e => e.time.left
  | none => 0

/-- R183, R194: LOOKUP of a point with a live notice. The table of R1 puts the label in LOOKUP replies too; the layout and the
lengths of R183 and the list of R194 have none, and the model follows these (log 24). -/
def State.lookupRecord (s : State) (n : Notice) : List Byte :=
  [byteOf n.point.val, bit (s.active n.point), n.phase.code, n.origin.code, byteOf n.level] ++ be16 n.arrival ++
    [byteOf n.count, s.noticeFlags n] ++ be16 (secondsLeft n.realert) ++ be16 (s.shelfLeft n.point) ++
    be16 n.rev.toNat ++ n.field.bytes

/-- R63, R194: whether a point is a member of the Pending Set. -/
def State.isPending (s : State) (p : Pt) : Bool := s.nt.pendSet.any fun u => UserPt.pt u = p

/-- R183, R194: LOOKUP of a point with no live notice, without a label (log 24). -/
def State.lookupStatus (s : State) (p : Pt) : List Byte :=
  [byteOf p.val, bit (s.active p), bit (s.isPending p)] ++ be16 (s.shelfLeft p)

/-- R194. -/
def lookupVerdict (s : State) (pl : List Byte) : Verdict :=
  lengthThen (pl.length = 1) <| withArgs (parseOne 130 pl) fun p =>
    match s.notice? p with
    | some n => .answer .ok (s.lookupRecord n)
    | none => .answer .noNotice (s.lookupStatus p)

/-- LOOKUP, kind 0x28. -/
def execLookup (pl : List Byte) (s : State) : Host.Outcome State Fault Refusal :=
  .next (s.request 0x28 pl (lookupVerdict s pl))

/-- R195: the list a filter selects, in Rank List order. -/
def State.listed (s : State) (f : ListFilter) : List Notice :=
  match f with
  | .all => s.rankList
  | .presented => s.presented
  | .unack => s.presented.filter fun n => n.phase.unack

/-- R183: an entry of LIST. -/
def State.listEntry (s : State) (n : Notice) : List Byte :=
  [byteOf n.point.val, n.phase.code, byteOf n.level, s.noticeFlags n, byteOf n.count] ++ be16 n.arrival ++ be16 n.rev.toNat

/-- R183, R195: what LIST reports from a start index, at most three entries. -/
def State.listReport (s : State) (start : Nat) (f : ListFilter) : List Byte :=
  let entries := ((s.listed f).drop start).take 3
  be16 s.nt.rev.toNat ++ [byteOf (s.listed f).length, byteOf start, byteOf entries.length] ++ entries.flatMap s.listEntry

/-- LIST, kind 0x29. -/
def execList (pl : List Byte) (s : State) : Host.Outcome State Fault Refusal :=
  .next <| s.request 0x29 pl <| lengthThen (pl.length = 2) <| withArgs (parseList pl) fun a =>
    .answer .ok (s.listReport a.1 a.2)

/-! ## PENDING, SHELF -/

/-- R183, R196: what PENDING reports from a start point, at most 36 members (the set stands ascending). -/
def State.pendingReport (s : State) (start : UserPt) : List Byte :=
  let members := (s.nt.pendSet.filter fun u => start ≤ u).take 36
  [byteOf s.nt.pendSet.length, byteOf members.length] ++ members.map fun u => byteOf u.val

/-- PENDING, kind 0x2A. -/
def execPending (pl : List Byte) (s : State) : Host.Outcome State Fault Refusal :=
  .next <| s.request 0x2A pl <| lengthThen (pl.length = 1) <| withArgs (parseOne 128 pl) fun u =>
    .answer .ok (s.pendingReport u)

/-- R183, R196: what SHELF reports from a start index, at most 12 entries in list order. -/
def State.shelfReport (s : State) (start : Nat) : List Byte :=
  let entries := (s.shelf.drop start).take 12
  [byteOf s.shelf.length, byteOf start, byteOf entries.length] ++
    entries.flatMap fun e => byteOf e.point.val :: be16 e.time.left

/-- SHELF, kind 0x2B. -/
def execShelf (pl : List Byte) (s : State) : Host.Outcome State Fault Refusal :=
  .next <| s.request 0x2B pl <| lengthThen (pl.length = 1) <| withArgs (parseOne 16 pl) fun i =>
    .answer .ok (s.shelfReport i.val)

/-! ## The attention events -/

/-- READ_EVENTS, kind 0x30 (R177, R197). -/
def execReadEvents (pl : List Byte) (s : State) : Host.Outcome State Fault Refusal :=
  .next (s.request 0x30 pl (plainReport pl [s.link.flags, s.link.enables]))

/-- CLEAR_EVENTS, kind 0x31 (R177, R197). -/
def execClearEvents (pl : List Byte) (s : State) : Host.Outcome State Fault Refusal :=
  .next <| s.request 0x31 pl <| lengthThen (pl.length = 1) <| withArgs (parseMask pl) fun m =>
    .act .ok (s.work.onState fun s => s.withLink (s.link.clearFlags m))

/-- EVENT_ENABLE, kind 0x32 (R177, R197). -/
def execEventEnable (pl : List Byte) (s : State) : Host.Outcome State Fault Refusal :=
  .next <| s.request 0x32 pl <| lengthThen (pl.length = 1) <| withArgs (parseMask pl) fun m =>
    .act .ok (s.work.onState fun s => s.withLink { s.link with enables := m })

/-! ## A request of an unknown kind -/

/-- UNKNOWN_KIND (R165, R180): the payload is not examined, nothing changes, and the answer says so. A kind that Chapter 10
gives, a poll and SOFT_RESET are no such request (log 20). -/
def execUnknownKind (kind : Byte) (pl : List Byte) (s : State) : Host.Outcome State Fault Refusal :=
  .next (if isUnknownKind kind then s.request kind pl (.refuse .unknownKind) else s)

end Sys2Proof.Machine
end

