-- ==== Sys2Proof/Machine/ModeRequests.lean ====
section
/-! DEFINITION. START and STOP (R203 to R206). -/

namespace Sys2Proof.Machine

/-! ## START -/

/-- R82: an offending point: its parent is itself, or its parent has a parent. -/
def State.offending (s : State) (u : UserPt) : Bool :=
  match (s.pointRec u).parent with
  | none => false
  | some y => y = u || (s.pointRec y).parent.isSome

/-- R82, R203: the lowest-numbered offending point. -/
def State.lowestOffender (s : State) : Option UserPt := (List.finRange 128).find? s.offending

/-- R169: the Link's supervision at START. -/
def Link.superviseFromStart (k : Link) : Link :=
  if k.supSetting = 0 then { k with sup := .off, supTimer := none }
  else { k with sup := .running, supTimer := some (Countdown.start k.supSetting) }

/-- R204: the four steps of START. The notification of step 4 is handed over, with one composition request, whatever the
raises changed. -/
def Work.start (w : Work) : Work :=
  let w1 := w.onState fun s => s.withCtl { s.ctl with mode := .run }
  let w2 := Work.raiseEach .startUp w1 (w1.st.lineActive fun u => w1.st.groupEnabled u)
  { w2.onState fun s => s.withLink s.link.superviseFromStart with notify := true }

/-- R198, R203, R204. -/
def startVerdict (s : State) (pl : List Byte) : Verdict :=
  lengthThen (pl.length = 0) <| inMode s .config <|
    match s.lowestOffender with
    | some u => .answer .invalidConfig [byteOf u.val]
    | none => .act .ok s.work.start

/-- START, kind 0x3E. -/
def execStart (pl : List Byte) (s : State) : Host.Outcome State Fault Refusal :=
  .next (s.request 0x3E pl (startVerdict s pl))

/-! ## STOP -/

/-- R205, step 4: a notice is retired with no RETIRED event and no admission. -/
def Work.removeQuietly (w : Work) (p : Pt) : Work :=
  match w.st.notice? p with
  | some n => w.remove n false
  | none => w

/-- R19, R205 step 5: link-sourced and system conditions CLEAR, every marker NONE; line-bound conditions stay. -/
def State.clearSources (s : State) : State :=
  s.withPt { s.pt with
    cond := vmap (fun p v =>
      match userOf p with
      | some u => v && !s.linkSourced u
      | none => false) s.pt.cond
    groups := vmap (fun _ g => { g with marker := none }) s.pt.groups }

/-- R205, steps 1 to 3: supervision OFF, the Pending Set and the Shelf List emptied. -/
def State.emptyQueues (s : State) : State :=
  { s with
    link := { s.link with sup := .off, supTimer := none }
    nt := { s.nt with pendSet := [] }
    shelf := [] }

/-- R205, steps 6 to 9, less the composition request. -/
def State.standDown (s : State) : State :=
  { s with
    nt := { s.nt with arrival := 1 }
    ctl := { s.ctl with mode := .config }
    snd := { s.snd with chirp := none }
    pres := { s.pres with top := 0, anchor := none, scrollTimer := none } }

/-- R205: the nine steps of STOP; step 9 takes one composition request. -/
def Work.stop (w : Work) : Work :=
  let w1 := w.onState State.emptyQueues
  let w2 := (w1.st.nt.notices.map (·.point)).foldl Work.removeQuietly w1
  { w2.onState fun s => s.clearSources.standDown with compose := true }

/-- STOP, kind 0x3F (R198, R205). -/
def execStop (pl : List Byte) (s : State) : Host.Outcome State Fault Refusal :=
  .next <| s.request 0x3F pl <| lengthThen (pl.length = 0) <| inMode s .run <| .act .ok s.work.stop

end Sys2Proof.Machine
end

