-- ==== Sys2Proof/Machine/LinkEvents.lean ====
section
/-! DEFINITION. The events of the host link (Chapter 9): the transaction with its judgement, the placement of a reply, and
supervision. SOFT_RESET is a judgement of a transaction (R164, R202). -/

namespace Sys2Proof.Machine

/-! ## CSN_FALL -/

/-- CSN_FALL (R156 to R158): the status byte is sampled and the MISO bytes are fixed. While the part takes no transaction the
pin falls alone (R156, R201, log 6), and inside the hold of a SOFT_RESET the transaction is muted (R202). CSN that is low cannot
fall (log 4). -/
def execCsnFall (s : State) : Host.Outcome State Fault Refusal :=
  .next <|
    if s.link.csnLow then s
    else
      s.withLink { s.link with
        csnLow := true
        muted := s.ctl.softHold
        trans :=
          if s.inService then
            some { status := s.statusByte, reply := if s.link.state = .replyReady then s.link.slot else none }
          else none }

/-! ## TRANSACTION_END -/

/-- R163: how a transaction with at least one whole byte is judged. -/
inductive Judgement
  | poll
  | badFrame
  | badCrc
  | softReset
  | refusedBusy
  | refusedUnread
  | taken (t : Taken)
  deriving DecidableEq, Repr

/-- R166: the transaction clocked the waiting reply out whole. -/
def Transaction.consumes (t : Transaction) (whole : Nat) : Bool :=
  match t.reply with
  | some f => 5 + f.payload.length ≤ whole
  | none => false

/-- R166: consumption empties the slot and sets the link IDLE. -/
def Link.consume (k : Link) (consumed : Bool) : Link := if consumed then { k with slot := none, state := .idle } else k

/-- R157, R163: the checks, in their order, on the Link as consumption left it. -/
def Link.judge (k : Link) (mosi : List Byte) : Judgement :=
  let n := (mosi.getD 2 0).toNat
  if mosi.getD 0 0 = 0 then .poll
  else if mosi.length < 4 then .badFrame
  else if Config.maxPayload < n then .badFrame
  else if mosi.length < 4 + n then .badFrame
  else if crc8 (mosi.take (4 + n)) ≠ 0 then .badCrc
  else if mosi.getD 0 0 = softResetKind then .softReset
  else if k.state = .working then .refusedBusy
  else if k.slot.isSome then .refusedUnread
  else .taken { kind := mosi.getD 0 0, tag := mosi.getD 1 0, payload := (mosi.drop 3).take n }

/-- R159: the last outcome that a judgement sets. -/
def Judgement.outcome : Judgement → LastOutcome
  | .poll | .softReset => .none
  | .badFrame => .badFrame
  | .badCrc => .badCrc
  | .refusedBusy => .refusedBusy
  | .refusedUnread => .refusedUnread
  | .taken _ => .taken

/-- R163: the request that a judgement takes. -/
def Judgement.request? : Judgement → Option Taken
  | .taken t => some t
  | .poll | .badFrame | .badCrc | .softReset | .refusedBusy | .refusedUnread => none

/-- R170: whether the transaction restarts supervision. -/
def Judgement.restarts : Judgement → Bool
  | .poll | .refusedBusy | .refusedUnread | .taken _ => true
  | .badFrame | .badCrc | .softReset => false

/-- R163: whether the judgement sets LINK_FAULT. -/
def Judgement.faulty : Judgement → Bool
  | .badFrame | .badCrc => true
  | .poll | .softReset | .refusedBusy | .refusedUnread | .taken _ => false

/-- R159, R163, R167: the Link's own part of a judgement. -/
def Link.judged (k : Link) (j : Judgement) : Link :=
  let k1 := { k with outcome := j.outcome }
  match j with
  | .taken t => { k1 with state := .working, fresh := false, taken := some t, ran := none }
  | .poll | .badFrame | .badCrc | .softReset | .refusedBusy | .refusedUnread => k1

/-- R172: the host's return, its first two steps. -/
def Work.hostReturn (w : Work) : Work :=
  let w1 := w.setSystem hostSilent false
  (w1.st.nt.notices.map (·.point)).foldl (Work.setStale false) w1

/-- R170: the timer is set to the setting and supervision runs. -/
def Link.runSupervision (k : Link) : Link :=
  { k with sup := .running, supTimer := some (Countdown.start k.supSetting) }

/-- R170, R172: the effect of a restarting transaction on supervision. -/
def Work.restartSupervision (w : Work) : Work :=
  match w.st.link.sup with
  | .off => w
  | .running => w.onState fun s => s.withLink s.link.runSupervision
  | .expired => w.hostReturn.onState fun s => s.withLink s.link.runSupervision

/-- R163: a transaction judged other than SOFT_RESET, as one event: the Link's part, LINK_FAULT, and supervision. -/
def Work.transaction (w : Work) (j : Judgement) : Work :=
  let w1 := w.onState fun s => s.withLink (s.link.judged j)
  let w2 := if j.faulty then w1.flag .linkFault else w1
  if j.restarts then w2.restartSupervision else w2

/-- R201, R202: entry into reset by SOFT_RESET: every item at its reset value, the part held for 64 periods. -/
def State.softReset (s : State) : State := s.cleared.withCtl { s.cleared.ctl with softHold := true }

/-- R163, R164: the CSN rise of a transaction with at least one whole byte, on the Link as consumption left it. -/
def State.endTransaction (s : State) (j : Judgement) : State :=
  if j = .softReset then s.softReset else s.event fun w => w.transaction j

/-- TRANSACTION_END (R156, R163): CSN rises. Bits after the last whole byte are discarded, and edges of SCK while CSN was high are
ignored. A transaction that the part did not take, or with no whole byte, is not judged (R156, R201, R202); CSN that is high
cannot rise (log 4). -/
def execTransactionEnd (mosi _stray : List Bool) (s : State) : Host.Outcome State Fault Refusal :=
  let bytes := wholeBytes mosi
  .next <|
    if !s.link.csnLow then s
    else
      let s1 := s.withLink { s.link with csnLow := false, trans := none, muted := false }
      match s.link.trans with
      | none => s1
      | some t =>
        if bytes = [] || !s.inService then s1
        else
          let k := s1.link.consume (t.consumes bytes.length)
          (s1.withLink k).endTransaction (k.judge bytes)

/-! ## REPLY_PLACEMENT -/

/-- R165: the reply that placement writes: the one that the taken request's own run made, under the request's tag. -/
def Link.replyDue (k : Link) : Option ReplyFrame :=
  match k.state, k.taken, k.ran with
  | .working, some t, some r =>
    if r.kind = t.kind ∧ r.request = t.payload then some { result := r.result, tag := t.tag, payload := r.reply } else none
  | _, _, _ => none

/-- R165: the reply frame is written into the slot, the link becomes REPLY_READY, and REPLY is set. -/
def Link.place (k : Link) (f : ReplyFrame) : Link :=
  { k with slot := some f, state := .replyReady, taken := none, ran := none }.setFlag .reply

/-- REPLY_PLACEMENT (R165). With no run to answer it does not occur (log 4); none completes while the oscillator stands
(R200). -/
def execReplyPlacement (s : State) : Host.Outcome State Fault Refusal :=
  .next <|
    match s.link.replyDue with
    | some f => if s.inService then s.withLink (s.link.place f) else s
    | none => s

/-! ## SUPERVISION_EXPIRY -/

/-- R46, R171 step 3: the stale flag is set on every live notice of LINK origin, ascending. -/
def State.linkNotices (s : State) : List Pt := (s.nt.notices.filter fun n => n.origin = .link).map (·.point)

/-- R171: the three steps of the expiry. -/
def Work.supervisionExpiry (w : Work) : Work :=
  let w1 := w.onState fun s => s.withLink { s.link with sup := .expired, supTimer := none }
  let w2 := w1.setSystem hostSilent true
  (w2.st.linkNotices).foldl (Work.setStale true) w2

/-- SUPERVISION_EXPIRY (R171): the timer has reached zero in RUNNING. -/
def execSupervisionExpiry (s : State) : Host.Outcome State Fault Refusal :=
  .next <|
    if s.inService && s.link.sup = .running && expiryDue s.link.supTimer then s.event Work.supervisionExpiry else s

end Sys2Proof.Machine
end

