-- ==== Sys2Proof/Machine/LineEvents.lean ====
section
/-! DEFINITION. The events of the field lines (Chapter 5) and the expiries of the countdowns of points (R44, R75). -/

namespace Sys2Proof.Machine

/-! ## LINE_RAW_CHANGE -/

/-- R87, R208: the raw level that a pin gives a line; between the thresholds it reads as the level last read. -/
def LineRec.read (r : LineRec) (pin : PinLevel) : Bool :=
  match pin, r.polarity with
  | .low, .normal => true
  | .high, .normal => false
  | .low, .inverted => false
  | .high, .inverted => true
  | .mid, _ => r.sample

/-- R90, R91: a sample of a line; one that differs from the previous one is a raw change. -/
def LineRec.sampled (r : LineRec) (pin : PinLevel) : LineRec :=
  if r.read pin = r.sample then r else { r with sample := r.read pin }.rawChange (r.read pin)

/-- LINE_RAW_CHANGE (R87, R90, R91, R208). -/
def execLineRawChange (line : LineNo) (pin : PinLevel) (s : State) : Host.Outcome State Fault Refusal :=
  .next (if s.inService then s.putLine line ((s.lineRec line).sampled pin) else s)

/-! ## LINE_QUALIFY_EXPIRY -/

/-- R97: the qualified activation that would be counted brings the count to or above the limit in an open window. -/
def LineRec.reachesLimit (r : LineRec) : Bool :=
  r.hold = .none && r.chatterLimit ≠ 0 && r.timer.isSome && r.chatterLimit ≤ r.count + 1

/-- R91, R97, R99: the record after a qualified activation that does not enter chatter hold; W is the chatter window. -/
def LineRec.activated (r : LineRec) (W : Nat) : LineRec :=
  let r1 := { r with state := .active, qualify := 0 }
  match r.hold with
  | .chatter => { r1 with timer := some (Countdown.start W) }
  | .none =>
    if r.chatterLimit = 0 then r1
    else if r.timer.isNone then { r1 with count := 1, timer := some (Countdown.start W) }
    else { r1 with count := r.count + 1 }

/-- R98, steps 1 and 2: the record that enters chatter hold. -/
def LineRec.enterHold (r : LineRec) (W : Nat) : LineRec :=
  { r with
    state := .active, qualify := 0, hold := .chatter, count := r.chatterLimit, timer := some (Countdown.start W) }

/-- R91, R99: the record after a qualified deactivation. -/
def LineRec.deactivated (r : LineRec) (W : Nat) : LineRec :=
  let r1 := { r with state := .quiet, qualify := 0 }
  match r.hold with
  | .chatter => { r1 with timer := some (Countdown.start W) }
  | .none => r1

/-- R94: a line record takes a new value, and a change of its held level sets the bound point's condition. -/
def Work.moveLine (w : Work) (l : LineNo) (r : LineRec) : Work :=
  let old := w.st.lineRec l
  let w1 := w.onState fun s => s.putLine l r
  match r.bound with
  | some u => if old.held = r.held then w1 else w1.setUser u r.held true
  | none => w1

/-- R47, R98 step 3, R100 step 2: the chattering flag of the bound point's notice takes a value. -/
def Work.markChattering (w : Work) (bound : Option UserPt) (v : Bool) : Work :=
  match bound with
  | some u => w.setChattering v (UserPt.pt u)
  | none => w

/-- R98: entry into chatter hold, its five steps. The flag is set on the notice before the held level moves; a notice that
the raise then creates takes the flag from its line's hold (R24). -/
def Work.enterHold (w : Work) (l : LineNo) : Work :=
  let r := w.st.lineRec l
  ((w.markChattering r.bound true).moveLine l (r.enterHold w.st.lq.window)).flag .chatter

/-- R91, R97 to R99: the expiry of a line's qualify time. -/
def Work.qualified (w : Work) (l : LineNo) : Work :=
  let r := w.st.lineRec l
  match r.state with
  | .rising => if r.reachesLimit then w.enterHold l else w.moveLine l (r.activated w.st.lq.window)
  | .falling => w.moveLine l (r.deactivated w.st.lq.window)
  | .quiet | .active => w

/-- LINE_QUALIFY_EXPIRY (R91). In QUIET and ACTIVE no expiry runs (log 4). -/
def execLineQualifyExpiry (line : LineNo) (s : State) : Host.Outcome State Fault Refusal :=
  .next <|
    if s.inService && ((s.lineRec line).state = .rising || (s.lineRec line).state = .falling) then
      s.event fun w => w.qualified line
    else s

/-! ## CHATTER_WINDOW_EXPIRY, CHATTER_RELEASE -/

/-- CHATTER_WINDOW_EXPIRY (R97): the timer of an open window has reached zero with hold NONE; the window closes. -/
def execChatterWindowExpiry (line : LineNo) (s : State) : Host.Outcome State Fault Refusal :=
  .next <|
    if s.inService && (s.lineRec line).hold = .none && expiryDue (s.lineRec line).timer then
      s.putLine line { s.lineRec line with count := 0, timer := none }
    else s

/-- R100: the release of a line, its four steps. -/
def Work.releaseLine (w : Work) (l : LineNo) : Work :=
  let r := w.st.lineRec l
  (w.markChattering r.bound false).moveLine l r.idleWindow

/-- CHATTER_RELEASE (R100): the release timer of a line in chatter hold has reached zero. -/
def execChatterRelease (line : LineNo) (s : State) : Host.Outcome State Fault Refusal :=
  .next <|
    if s.inService && (s.lineRec line).hold = .chatter && expiryDue (s.lineRec line).timer then
      s.event fun w => w.releaseLine line
    else s

/-! ## SHELF_ENTRY_EXPIRY, REALERT_EXPIRY -/

/-- R71, R75: the entry whose expiry is next: the first of the list, once its countdown has reached zero. -/
def State.shelfDue (s : State) : Option UserPt :=
  match s.shelf with
  | e :: _ => if e.time.due then some e.point else none
  | [] => none

/-- R75: the expiry of a shelf entry, its three steps. -/
def Work.shelfExpiry (w : Work) (u : UserPt) : Work :=
  ((w.onState fun s => s.withShelf (dropEntry u s.shelf)).flag .shelfExpiry).returnToView (UserPt.pt u)

/-- SHELF_ENTRY_EXPIRY (R75). Entries that reach zero in one second expire one after another in list order (R71). -/
def execShelfEntryExpiry (point : UserPt) (s : State) : Host.Outcome State Fault Refusal :=
  .next <| if s.inService && s.shelfDue = some point then s.event fun w => w.shelfExpiry point else s

/-- R44, R123: the silenced flag clears and the countdown is removed, one change; in ALERT it is a candidate for a chirp. -/
def Work.realertExpiry (w : Work) (n : Notice) : Work :=
  let w1 := w.change n.point fun m => { m with silenced := false, realert := none }
  if n.phase = .alert then { w1 with chirps := n.point :: w1.chirps } else w1

/-- REALERT_EXPIRY (R44): the realert countdown of a point's notice has reached zero. -/
def execRealertExpiry (point : Pt) (s : State) : Host.Outcome State Fault Refusal :=
  .next <|
    match s.notice? point with
    | some n => if s.inService && expiryDue n.realert then s.event fun w => w.realertExpiry n else s
    | none => s

end Sys2Proof.Machine
end

