-- ==== Sys2Proof/Machine/PanelRequests.lean ====
section
/-! DEFINITION. The requests that write and read the panel settings, the output lines, the keys' lock, the message and the
lamp test (R187, R188). -/

namespace Sys2Proof.Machine

/-! ## WRITE_PANEL, READ_PANEL -/

/-- R44: a write of 0 removes every running realert countdown; the silenced flags stay. It is no change to a record (R36). -/
def NoticeTable.dropRealerts (t : NoticeTable) : NoticeTable :=
  { t with notices := t.notices.map fun n => { n with realert := none } }

/-- R120, R126, R124: the Sounder's settings; a floor written above 1 ends a running burst. -/
def Sounder.withSettings (b : Sounder) (a : PanelSettings) : Sounder :=
  { b with
    floor := a.floor, realertMin := a.realertMin
    chirp := if b.floor ≠ a.floor ∧ 1 < a.floor then none else b.chirp }

/-- R169, R173: the supervision setting; one that changes in RUN puts supervision OFF or sets its timer anew. -/
def Link.withSupervision (k : Link) (mode : Mode) (setting : Nat) : Link :=
  if k.supSetting = setting then k
  else
    match mode with
    | .config => { k with supSetting := setting }
    | .run =>
      if setting = 0 then { k with supSetting := 0, sup := .off, supTimer := none }
      else { k with supSetting := setting, sup := .running, supTimer := some (Countdown.start setting) }

/-- R187: every setting is stored, and each that changes acts by the rule that owns it. -/
def State.putPanel (s : State) (a : PanelSettings) : State :=
  { s with
    pres := { s.pres with lineMode := a.lineMode, orient := a.orient, scrollHold := a.scrollHold }
    snd := s.snd.withSettings a
    nt := if s.snd.realertMin ≠ a.realertMin ∧ a.realertMin = 0 then s.nt.dropRealerts else s.nt
    link := s.link.withSupervision s.ctl.mode a.supervision
    lq := { s.lq with window := a.window } }

/-- R187: an accepted WRITE_PANEL; a changed orientation or line mode requests a composition (R141, R142, R152). -/
def Work.writePanel (w : Work) (a : PanelSettings) : Work :=
  { w.onState fun s => s.putPanel a with
    compose := w.compose || w.st.pres.lineMode ≠ a.lineMode || w.st.pres.orient ≠ a.orient }

/-- R187: BAD_ARGUMENT first, then WRONG_MODE for a line mode that would change in RUN (R142). -/
def writePanelVerdict (s : State) (pl : List Byte) : Verdict :=
  lengthThen (pl.length = 7) <| withArgs (parsePanel pl) fun a =>
    if s.ctl.mode = .run ∧ s.pres.lineMode ≠ a.lineMode then .refuse .wrongMode else .act .ok (s.work.writePanel a)

/-- WRITE_PANEL, kind 0x16. -/
def execWritePanel (pl : List Byte) (s : State) : Host.Outcome State Fault Refusal :=
  .next (s.request 0x16 pl (writePanelVerdict s pl))

/-- R183: mode, parameter and output flags of an output line. -/
def State.outReport (s : State) (k : OutNo) : List Byte :=
  [(s.snd.outs.get k).mode.code, byteOf (s.snd.outs.get k).param, s.outFlags k]

/-- R183, R187: what READ_PANEL reports. -/
def State.panelReport (s : State) : List Byte :=
  s.panelSettings.payload ++ [s.kp.lock.setWidth 8, bit s.kp.testRunning] ++
    (s.outReport 0 ++ s.outReport 1 ++ s.outReport 2 ++ s.outReport 3)

/-- READ_PANEL, kind 0x17. -/
def execReadPanel (pl : List Byte) (s : State) : Host.Outcome State Fault Refusal :=
  .next <| s.request 0x17 pl <| lengthThen (pl.length = 0) <| .answer .ok s.panelReport

/-! ## The output lines -/

/-- R128: an output line record takes a new value. -/
def State.putOut (s : State) (k : OutNo) (r : OutRec) : State :=
  s.withSnd { s.snd with outs := s.snd.outs.set k.val r }

/-- R128: an accepted WRITE_OUTPUT; the host value is kept. -/
def State.writeOut (s : State) (a : OutWrite) : State :=
  s.putOut a.line { s.snd.outs.get a.line with mode := a.mode, param := a.param, inverted := a.inverted }

/-- WRITE_OUTPUT, kind 0x18. -/
def execWriteOutput (pl : List Byte) (s : State) : Host.Outcome State Fault Refusal :=
  .next <| s.request 0x18 pl <| lengthThen (pl.length = 4) <| withArgs (parseOut pl) fun a =>
    .act .ok (s.work.onState fun s => s.writeOut a)

/-- SET_OUTPUT, kind 0x35 (R130). -/
def execSetOutput (pl : List Byte) (s : State) : Host.Outcome State Fault Refusal :=
  .next <| s.request 0x35 pl <| lengthThen (pl.length = 2) <| withArgs (parseSetOut pl) fun a =>
    .act .ok (s.work.onState fun s => s.putOut a.1 { s.snd.outs.get a.1 with hostValue := a.2 })

/-! ## Keys, message, lamp test -/

/-- KEY_LOCK, kind 0x33 (R109, R188). -/
def execKeyLock (pl : List Byte) (s : State) : Host.Outcome State Fault Refusal :=
  .next <| s.request 0x33 pl <| lengthThen (pl.length = 1) <| withArgs (parseLock pl) fun m =>
    .act .ok (s.work.onState fun s => s.withKp { s.kp with lock := m })

/-- R133, R150: the message is replaced and a composition requested. -/
def Work.writeMessage (w : Work) (t : Text) : Work :=
  { w.onState fun s => s.withPres { s.pres with message := t } with compose := true }

/-- SET_MESSAGE, kind 0x34 (R188): 0 to 20 characters, each 0x20 to 0x7E. -/
def execSetMessage (pl : List Byte) (s : State) : Host.Outcome State Fault Refusal :=
  .next <| s.request 0x34 pl <| lengthThen (pl.length ≤ 20) <| withArgs (parseText 0 20 pl) fun t =>
    .act .ok (s.work.writeMessage t)

/-- R115: a start of the lamp test; one that runs is neither restarted nor lengthened. -/
def State.startLampTest (s : State) : State :=
  if s.kp.testRunning then s else s.withKp { s.kp with testRunning := true, testLeft := 8 }

/-- LAMP_TEST, kind 0x36 (R115, R188). -/
def execLampTest (pl : List Byte) (s : State) : Host.Outcome State Fault Refusal :=
  .next <| s.request 0x36 pl <| lengthThen (pl.length = 0) <| .act .ok (s.work.onState State.startLampTest)

end Sys2Proof.Machine
end

