-- ==== Sys2Proof/Machine/KeyEvents.lean ====
section
/-! DEFINITION. The events of the operator keypad (Chapter 6): raw changes, debounce, repeat, the taking of a press, and the
end of the lamp test. -/

namespace Sys2Proof.Machine

/-- R105: the keys by their numbers. -/
inductive Key
  | ack
  | silence
  | reset
  | test
  | up
  | down
  deriving DecidableEq, Repr

/-- R105: the key that a number names. -/
def keyNamed (k : KeyNo) : Key :=
  match k with
  | 0 => .ack
  | 1 => .silence
  | 2 => .reset
  | 3 => .test
  | 4 => .up
  | 5 => .down

/-- R105: UP and DOWN repeat. -/
def Key.repeats : Key → Bool
  | .up | .down => true
  | .ack | .silence | .reset | .test => false

/-- A key record. -/
def State.keyRec (s : State) (k : KeyNo) : KeyRec := s.kp.keys.get k

/-- R109: whether a press or repeat press acts, by its three checks. R179 gives bit k of the lock mask to key k; that a bit of 1
means locked is the model's reading (log 27). -/
def State.pressActs (s : State) (k : KeyNo) : Bool :=
  !s.kp.testRunning && !s.kp.lock.getLsbD k.val && (s.ctl.mode = .run || keyNamed k = .test)

/-- R110: an ACK press that acts. -/
def Work.ackPress (w : Work) : Work := (w.ackAll (w.st.presentedScope w.st.ackable)).flag .operator

/-- R111: a RESET press that acts. -/
def Work.resetPress (w : Work) : Work := (w.resetAll (w.st.presentedScope Notice.resettable)).flag .operator

/-- R112: a SILENCE press that acts. -/
def Work.silencePress (w : Work) : Work := w.silenceAll.flag .operator

/-- R110 to R115: what a press that acts does. -/
def Work.press (w : Work) (k : Key) : Work :=
  match k with
  | .ack => w.ackPress
  | .silence => w.silencePress
  | .reset => w.resetPress
  | .test => w.onState State.startLampTest
  | .up => w.onState fun s => s.scrollStep true
  | .down => w.onState fun s => s.scrollStep false

/-- R109: a press or repeat press is taken; an ignored one has no effect. -/
def State.takePress (s : State) (k : KeyNo) : State :=
  if s.pressActs k then s.event fun w => w.press (keyNamed k) else s

/-- R105, R208: what a pin gives a key, true for pressed; between the thresholds it reads as the level last read. -/
def KeyRec.read (r : KeyRec) (pin : PinLevel) : Bool :=
  match pin with
  | .low => true
  | .high => false
  | .mid => r.sample

/-- R106: a raw change of a key; the pairings that cannot occur change nothing (log 4). -/
def KeyRec.rawChange (r : KeyRec) (pressed : Bool) : KeyRec :=
  match r.state, pressed with
  | .open, true => { r with state := .making }
  | .making, false => { r with state := .open }
  | .made, false => { r with state := .breaking }
  | .breaking, true => { r with state := .made }
  | .open, false | .making, true | .made, true | .breaking, false => r

/-- R105, R106: a sample of a key; one that differs from the previous one is a raw change. -/
def KeyRec.sampled (r : KeyRec) (pin : PinLevel) : KeyRec :=
  if r.read pin = r.sample then r else { r with sample := r.read pin }.rawChange (r.read pin)

/-- KEY_RAW_CHANGE (R105, R106, R208). -/
def execKeyRawChange (key : KeyNo) (pin : PinLevel) (s : State) : Host.Outcome State Fault Refusal :=
  .next (if s.inService then s.putKey key ((s.keyRec key).sampled pin) else s)

/-- R106, R108: the debounce of a key in MAKING ends: MADE, its repeat timer set if it repeats, and the press taken. -/
def State.keyMade (s : State) (k : KeyNo) : State :=
  (s.putKey k { s.keyRec k with
    state := .made
    repeatTimer := if (keyNamed k).repeats then some 600 else (s.keyRec k).repeatTimer }).takePress k

/-- R106, R108: the debounce of a key in BREAKING ends: the release is complete and the repeat timer stops. -/
def State.keyReleased (s : State) (k : KeyNo) : State :=
  s.putKey k { s.keyRec k with state := .open, repeatTimer := none }

/-- KEY_DEBOUNCE_EXPIRY (R106). In OPEN and MADE no debounce runs (log 4). -/
def execKeyDebounceExpiry (key : KeyNo) (s : State) : Host.Outcome State Fault Refusal :=
  .next <|
    if s.inService then
      match (s.keyRec key).state with
      | .making => s.keyMade key
      | .breaking => s.keyReleased key
      | .open | .made => s
    else s

/-- R108: the repeat timer of a key is set to 200 ms. -/
def State.rearmRepeat (s : State) (k : KeyNo) : State := s.putKey k { s.keyRec k with repeatTimer := some 200 }

/-- KEY_REPEAT_EXPIRY (R108): in MADE a repeat press is taken, in BREAKING none; the timer is set to 200 ms. A stopped timer
does not expire (log 4). -/
def execKeyRepeatExpiry (key : KeyNo) (s : State) : Host.Outcome State Fault Refusal :=
  .next <|
    if s.inService && (s.keyRec key).repeatTimer.isSome then
      match (s.keyRec key).state with
      | .made => (s.rearmRepeat key).takePress key
      | .breaking => s.rearmRepeat key
      | .open | .making => s
    else s

/-- LAMP_TEST_EXPIRY (R115): the 8 s have run out. -/
def execLampTestExpiry (s : State) : Host.Outcome State Fault Refusal :=
  .next <|
    if s.inService && s.kp.testRunning then s.withKp { s.kp with testRunning := false, testLeft := 0 } else s

end Sys2Proof.Machine
end

