-- ==== Sys2Proof/Machine/TimeEvents.lean ====
section
/-! DEFINITION. The events of the time base at the panel (Chapters 7, 8, R200): cadence steps, lamp chain, chirp burst,
seconds, scroll hold, composition and frames. -/

namespace Sys2Proof.Machine

/-! ## STEP_BOUNDARY -/

/-- R134: the cadence step that begins at the next step boundary. -/
def nextStep (k : Fin 8) : Fin 8 := k + 1

/-- R122: the cycle parity after a boundary that begins a step. -/
def parityAt (step : Fin 8) (odd : Bool) : Bool := if step = 0 then !odd else odd

/-- R124: a step that begins is one of the burst's three. -/
def chirpStepBegins (chirp : Option Nat) : Bool := chirp.any fun k => k < 3

/-- R124: the burst after a step has begun. Its end is CHIRP_BURST_END (log 18). -/
def chirpAtBoundary (chirp : Option Nat) : Option Nat := chirp.map fun k => if k < 3 then k + 1 else k

/-- R122: the Sounder at a step boundary. -/
def State.sounderAtBoundary (s : State) : Sounder :=
  let step := nextStep s.pres.step
  let odd := parityAt step s.snd.oddCycle
  { s.snd with
    oddCycle := odd
    horn := s.patternInForce.onIn step odd (chirpStepBegins s.snd.chirp)
    chirp := chirpAtBoundary s.snd.chirp }

/-- R137: the 48 values that a refresh samples for a step. -/
def State.sampleTiles (s : State) (step : Fin 8) : Vector Bool 48 :=
  ⟨⟨(List.finRange 48).map (s.tileLit step)⟩, by simp⟩

/-- R134, R137: Presentation at a step boundary: the step moves on and a refresh starts. The frame that begins at the
boundary lies in the new step (R134, log 16). -/
def State.presentationAtBoundary (s : State) : Presentation :=
  let step := nextStep s.pres.step
  { s.pres with step := step, scan := { s.pres.scan with step := step }, refresh := some (s.sampleTiles step) }

/-- STEP_BOUNDARY (R122, R134, R137). -/
def execStepBoundary (s : State) : Host.Outcome State Fault Refusal :=
  .next <| if s.inService then (s.withSnd s.sounderAtBoundary).withPres s.presentationAtBoundary else s

/-! ## REFRESH_LATCH -/

/-- R137: the values in the order they leave on the lamp chain data line, tile 47 first and tile 0 last. -/
def shiftedOut (tiles : Vector Bool 48) : List Bool := tiles.toList.reverse

/-- R137: the external latch chain after bits were clocked into its first stage, one after another. -/
def chainAfter (bits chain : List Bool) : List Bool := bits.foldl (fun chain b => (b :: chain).take 48) chain

theorem chainAfter_length (bits : List Bool) : ∀ chain, chain.length = 48 → (chainAfter bits chain).length = 48 := by
  induction bits with
  | nil => exact fun _ h => h
  | cons b rest ih => exact fun chain h => ih _ (by simp [h])

theorem shiftedOut_length (tiles : Vector Bool 48) : (shiftedOut tiles).length = 48 := by simp [shiftedOut]

/-- R137: the data level at a shift clock of a refresh, high for a lit tile. -/
def dataAt (tiles : Vector Bool 48) (clock : Fin 48) : Bool :=
  (shiftedOut tiles)[clock.val]'(by rw [shiftedOut_length]; exact clock.isLt)

/-- R137: whether a lamp chain line is high. In reset every line is held low; at a shift clock of the refresh in progress the
data line carries a tile; no rule states another level (log 25). -/
def State.chainLine (s : State) (l : ChainLine) (m : ChainMoment) : Bool :=
  if s.inReset then false
  else
    match l, m, s.pres.refresh with
    | .data, .shift clock, some tiles => dataAt tiles clock
    | _, _, _ => Config.chainLevel l m s.pres.refresh

/-- R137: what the latch pulse moves to the lamp drivers after the 48 shift clocks. -/
def latched (tiles lamps : Vector Bool 48) : Vector Bool 48 :=
  ⟨⟨chainAfter (shiftedOut tiles) lamps.toList⟩, by simp [chainAfter_length]⟩

/-- REFRESH_LATCH (R137). With no refresh in progress there is no pulse (log 4). -/
def execRefreshLatch (s : State) : Host.Outcome State Fault Refusal :=
  .next <|
    match s.pres.refresh with
    | some tiles =>
      if s.inService then s.withPres { s.pres with refresh := none, lamps := latched tiles s.pres.lamps } else s
    | none => s

/-! ## CHIRP_BURST_END, SECONDS_TICK -/

/-- CHIRP_BURST_END (R124): the third step of a burst ends. -/
def execChirpBurstEnd (s : State) : Host.Outcome State Fault Refusal :=
  .next <| if s.inService && s.snd.chirp = some 3 then s.withSnd { s.snd with chirp := none } else s

/-- R200: the realert countdowns move at a tick; that is no change to a record (R36). -/
def NoticeTable.tick (t : NoticeTable) : NoticeTable :=
  { t with notices := t.notices.map fun n => { n with realert := n.realert.map Countdown.tick } }

/-- R71, R200: every shelf entry moves at a tick. -/
def tickShelf (l : List ShelfEntry) : List ShelfEntry := l.map fun e => { e with time := e.time.tick }

/-- R97, R99, R200: the chatter timers move at a tick. -/
def LineQualifier.tick (q : LineQualifier) : LineQualifier :=
  { q with lines := vmap (fun _ r => { r with timer := r.timer.map Countdown.tick }) q.lines }

/-- SECONDS_TICK (R200): every countdown kept in whole seconds moves; their expiries are events of their own. -/
def execSecondsTick (s : State) : Host.Outcome State Fault Refusal :=
  .next <|
    if s.inService then
      { s with
        nt := s.nt.tick
        shelf := tickShelf s.shelf
        lq := s.lq.tick
        link := { s.link with supTimer := s.link.supTimer.map Countdown.tick }
        pres := { s.pres with scrollTimer := s.pres.scrollTimer.map Countdown.tick } }
    else s

/-! ## SCROLL_HOLD_EXPIRY -/

/-- R145: the timer stops; in RUN the window top becomes 0 and the anchor is set. -/
def State.scrollHome (s : State) : State :=
  let s1 := s.withPres { s.pres with scrollTimer := none }
  match s.ctl.mode with
  | .run => (s1.withPres { s1.pres with top := 0 }).setAnchor
  | .config => s1

/-- SCROLL_HOLD_EXPIRY (R145): the scroll-hold timer has reached zero. -/
def execScrollHoldExpiry (s : State) : Host.Outcome State Fault Refusal :=
  .next <|
    if s.inService && expiryDue s.pres.scrollTimer then s.event fun w => w.onState State.scrollHome else s

/-! ## COMPOSITION_COMPLETE, FRAME_BOUNDARY -/

/-- R153: the composer at a completion: READY with the frame in the back buffer, or, with the dirty mark set, a new
composition with a new snapshot. -/
def State.completed (s : State) (snap : Snapshot) : State :=
  if s.pres.dirty then s.withPres { s.pres with dirty := false, composer := .composing s.snapshot }
  else s.withPres { s.pres with composer := .ready, back := snap.frame }

/-- COMPOSITION_COMPLETE (R153). No completion runs in IDLE or READY (log 4). -/
def execCompositionComplete (s : State) : Host.Outcome State Fault Refusal :=
  .next <|
    match s.pres.composer with
    | .composing snap => if s.inService then s.completed snap else s
    | .idle | .ready => s

/-- R154: at a frame boundary with the composer READY the buffers exchange roles. -/
def Presentation.swapped (b : Presentation) : Presentation :=
  match b.composer with
  | .ready => { b with front := b.back, back := b.front, composer := .idle }
  | .idle | .composing _ => b

/-- FRAME_BOUNDARY (R140 to R142, R154): a swap if a frame is ready, and the new frame takes the step, the line mode and the
orientation as they stand, and whether a lamp test runs (R116, log 17). -/
def execFrameBoundary (s : State) : Host.Outcome State Fault Refusal :=
  .next <|
    if s.inService then
      s.withPres { s.pres.swapped with
        scan := { step := s.pres.step, lineMode := s.pres.lineMode, orient := s.pres.orient, allLit := s.kp.testRunning } }
    else s

end Sys2Proof.Machine
end

