-- ==== Sys2Proof/Machine/PowerEvents.lean ====
section
/-! DEFINITION. Power, the RESETN pin, reset exit and the oscillator (R200, R201). -/

namespace Sys2Proof.Machine

/-- R201: entry into a reset by power-on or RESETN: every operation in flight is abandoned and every item takes its reset
value (log 10), with Mode Control as given. -/
def State.enterReset (s : State) (f : Control → Control) : State := s.cleared.withCtl (f s.cleared.ctl)

/-- POWER_ON (R201): the supply rises; power-on reset holds the part, and the oscillator runs in it (R200, log 7). -/
def execPowerOn (s : State) : Host.Outcome State Fault Refusal :=
  .next (s.enterReset fun c => { c with supplyOk := true, powerHold := true, oscRunning := true })

/-- SUPPLY_FALL (R201): the supply falls below its range and the part enters power-on reset. -/
def execSupplyFall (s : State) : Host.Outcome State Fault Refusal :=
  .next (s.enterReset fun c => { c with supplyOk := false, powerHold := true, oscRunning := true })

/-- RESETN_FALL (R201): the RESETN pin goes low and holds the part in reset. -/
def execResetnFall (s : State) : Host.Outcome State Fault Refusal :=
  .next (s.enterReset fun c => { c with resetnLow := true, pinHold := true, oscRunning := true })

/-- RESETN_RISE (R201): the pin rises; it goes on holding the part for 64 periods, to RESET_EXIT at the earliest. A pin that
is high cannot rise (log 4). -/
def execResetnRise (s : State) : Host.Outcome State Fault Refusal :=
  .next (if s.ctl.resetnLow then s.withCtl { s.ctl with resetnLow := false } else s)

/-- R201, R202: nothing that cannot time out holds the part: the supply stands in range, RESETN is high and the oscillator
counts the periods of the hold. -/
def State.mayExitReset (s : State) : Bool := s.inReset && s.ctl.supplyOk && !s.ctl.resetnLow && s.ctl.oscRunning

/-- RESET_EXIT (R201, R202): the hold has run out; every item holds its reset value and the part takes events. -/
def execResetExit (s : State) : Host.Outcome State Fault Refusal :=
  .next <|
    if s.mayExitReset then s.enterReset fun c => { c with powerHold := false, pinHold := false, softHold := false } else s

/-- OSCILLATOR_STOP (R200): everything timed stands. While power-on or RESETN holds the part the oscillator runs (log 7). -/
def execOscillatorStop (s : State) : Host.Outcome State Fault Refusal :=
  .next (if s.ctl.powerHold || s.ctl.pinHold then s else s.withCtl { s.ctl with oscRunning := false })

/-- OSCILLATOR_RESTART (R200): every count resumes from where it stood. -/
def execOscillatorRestart (s : State) : Host.Outcome State Fault Refusal :=
  .next (s.withCtl { s.ctl with oscRunning := true })

end Sys2Proof.Machine
end

