-- ==== Sys2Proof/Machine/Dispatch.lean ====
section
/-! DEFINITION. One arm per command: each calls its own meaning. -/

namespace Sys2Proof.Machine

def exec (i : Instr) (s : State) : Host.Outcome State Fault Refusal :=
  match i with
  | .identify payload => Sys2Proof.Machine.execIdentify payload s
  | .status payload => Sys2Proof.Machine.execStatus payload s
  | .writePoint payload => Sys2Proof.Machine.execWritePoint payload s
  | .readPoint payload => Sys2Proof.Machine.execReadPoint payload s
  | .writeGroup payload => Sys2Proof.Machine.execWriteGroup payload s
  | .readGroup payload => Sys2Proof.Machine.execReadGroup payload s
  | .writeLine payload => Sys2Proof.Machine.execWriteLine payload s
  | .readLine payload => Sys2Proof.Machine.execReadLine payload s
  | .writePanel payload => Sys2Proof.Machine.execWritePanel payload s
  | .readPanel payload => Sys2Proof.Machine.execReadPanel payload s
  | .writeOutput payload => Sys2Proof.Machine.execWriteOutput payload s
  | .setOutput payload => Sys2Proof.Machine.execSetOutput payload s
  | .keyLock payload => Sys2Proof.Machine.execKeyLock payload s
  | .setMessage payload => Sys2Proof.Machine.execSetMessage payload s
  | .lampTest payload => Sys2Proof.Machine.execLampTest payload s
  | .raise payload => Sys2Proof.Machine.execRaise payload s
  | .clear payload => Sys2Proof.Machine.execClear payload s
  | .acknowledge payload => Sys2Proof.Machine.execAcknowledge payload s
  | .reset payload => Sys2Proof.Machine.execReset payload s
  | .silence payload => Sys2Proof.Machine.execSilence payload s
  | .retire payload => Sys2Proof.Machine.execRetire payload s
  | .shelve payload => Sys2Proof.Machine.execShelve payload s
  | .unshelve payload => Sys2Proof.Machine.execUnshelve payload s
  | .lookup payload => Sys2Proof.Machine.execLookup payload s
  | .list payload => Sys2Proof.Machine.execList payload s
  | .pending payload => Sys2Proof.Machine.execPending payload s
  | .shelf payload => Sys2Proof.Machine.execShelf payload s
  | .readEvents payload => Sys2Proof.Machine.execReadEvents payload s
  | .clearEvents payload => Sys2Proof.Machine.execClearEvents payload s
  | .eventEnable payload => Sys2Proof.Machine.execEventEnable payload s
  | .start payload => Sys2Proof.Machine.execStart payload s
  | .stop payload => Sys2Proof.Machine.execStop payload s
  | .unknownKind kind payload => Sys2Proof.Machine.execUnknownKind kind payload s
  | .csnFall => Sys2Proof.Machine.execCsnFall s
  | .transactionEnd mosi stray => Sys2Proof.Machine.execTransactionEnd mosi stray s
  | .replyPlacement => Sys2Proof.Machine.execReplyPlacement s
  | .supervisionExpiry => Sys2Proof.Machine.execSupervisionExpiry s
  | .lineRawChange line pin => Sys2Proof.Machine.execLineRawChange line pin s
  | .lineQualifyExpiry line => Sys2Proof.Machine.execLineQualifyExpiry line s
  | .chatterWindowExpiry line => Sys2Proof.Machine.execChatterWindowExpiry line s
  | .chatterRelease line => Sys2Proof.Machine.execChatterRelease line s
  | .shelfEntryExpiry point => Sys2Proof.Machine.execShelfEntryExpiry point s
  | .realertExpiry point => Sys2Proof.Machine.execRealertExpiry point s
  | .keyRawChange key pin => Sys2Proof.Machine.execKeyRawChange key pin s
  | .keyDebounceExpiry key => Sys2Proof.Machine.execKeyDebounceExpiry key s
  | .keyRepeatExpiry key => Sys2Proof.Machine.execKeyRepeatExpiry key s
  | .lampTestExpiry => Sys2Proof.Machine.execLampTestExpiry s
  | .stepBoundary => Sys2Proof.Machine.execStepBoundary s
  | .refreshLatch => Sys2Proof.Machine.execRefreshLatch s
  | .chirpBurstEnd => Sys2Proof.Machine.execChirpBurstEnd s
  | .secondsTick => Sys2Proof.Machine.execSecondsTick s
  | .scrollHoldExpiry => Sys2Proof.Machine.execScrollHoldExpiry s
  | .compositionComplete => Sys2Proof.Machine.execCompositionComplete s
  | .frameBoundary => Sys2Proof.Machine.execFrameBoundary s
  | .powerOn => Sys2Proof.Machine.execPowerOn s
  | .supplyFall => Sys2Proof.Machine.execSupplyFall s
  | .resetnFall => Sys2Proof.Machine.execResetnFall s
  | .resetnRise => Sys2Proof.Machine.execResetnRise s
  | .resetExit => Sys2Proof.Machine.execResetExit s
  | .oscillatorStop => Sys2Proof.Machine.execOscillatorStop s
  | .oscillatorRestart => Sys2Proof.Machine.execOscillatorRestart s

end Sys2Proof.Machine
end

