-- ==== Sys2Proof/Safety.lean ====
section
/-! DEFINITION. What is true of the part after every step: the laws that the manual states beside its rules, each a predicate
of a state. That every step keeps them is claimed in Certificates/Slice0/Obligations.lean, and proved there or not at all. -/

namespace Sys2Proof.Machine

/-! ## How a claim speaks of an outcome -/

/-- The command completes: its outcome is a next state, no fault and no refusal, and that state is as `P` says. -/
def Reaches (o : Host.Outcome State Fault Refusal) (P : State → Prop) : Prop := ∃ t, o = .next t ∧ P t

/-- There is a value, and it is as `P` says. -/
def Holds {α : Type} (o : Option α) (P : α → Prop) : Prop := ∃ a, o = some a ∧ P a

/-- The state whose only change is the reply that a run of a request made (log 2). -/
def State.replied (s : State) (kind : Byte) (request : List Byte) (result : Result) (reply : List Byte) : State :=
  s.recordRun { kind := kind, request := request, result := result, reply := reply }

/-- The part runs in a mode: nothing holds it in reset, the oscillator runs, and the mode is as named. -/
abbrev State.inModeNow (s : State) (m : Mode) : Prop := s.inService = true ∧ s.ctl.mode = m

/-- R135: whether a pattern is lit in a cadence step. -/
def litDuring (q : Pattern) (step : Fin 8) : Prop :=
  match q with
  | .fast => step.val % 2 = 0
  | .slow => step.val ≤ 3
  | .wink => step.val ≤ 1
  | .steady => True
  | .off => False

/-- R136, R148: the pattern that a notice asks of its tile, and of the marker of its line. -/
def askedPattern (n : Notice) : Pattern :=
  match n.phase with
  | .alert => if n.firstOut then .fast else .slow
  | .fleeting => .slow
  | .returned => .wink
  | .standing => .steady

/-! ## Frames: what an event leaves as it was -/

/-- What Presentation keeps at the end of every event: all but the window, its timer and the composer with its dirty mark. -/
structure PresStep (a b : Presentation) : Prop where
  step : b.step = a.step
  lineMode : b.lineMode = a.lineMode
  orient : b.orient = a.orient
  scrollHold : b.scrollHold = a.scrollHold
  message : b.message = a.message
  front : b.front = a.front
  back : b.back = a.back
  scan : b.scan = a.scan
  refresh : b.refresh = a.refresh
  lamps : b.lamps = a.lamps

/-- State b follows state a by operations of the Notice Table alone: the notices, the Pending Set, the arrival counter, the
table revision, the group markers, the attention flags and the condition of point 129 may have changed, nothing else. -/
structure TableStep (a b : State) : Prop where
  pending : b.pending = a.pending
  ctl : b.ctl = a.ctl
  points : b.pt.points = a.pt.points
  group : ∀ g, b.groupRec g = { a.groupRec g with marker := (b.groupRec g).marker }
  cond : ∀ p, p ≠ panelOverflow → b.active p = a.active p
  shelf : b.shelf = a.shelf
  lq : b.lq = a.lq
  kp : b.kp = a.kp
  snd : b.snd = a.snd
  pres : b.pres = a.pres
  link : b.link = { a.link with flags := b.link.flags }

/-- What an event at the Notice Table leaves as it was, its end included: the queue, Mode Control, every point record, every
group record but its marker, the Shelf List, the lines, the keys, the Sounder but the chirp burst, Presentation but the window
and the composer, and the Link but the attention flags and the reply of the run. Of the notices, the Pending Set, the
arrival counter, the table revision and the conditions it says nothing. -/
structure EventFrame (a b : State) : Prop where
  pending : b.pending = a.pending
  ctl : b.ctl = a.ctl
  points : b.pt.points = a.pt.points
  group : ∀ g, b.groupRec g = { a.groupRec g with marker := (b.groupRec g).marker }
  shelf : b.shelf = a.shelf
  lq : b.lq = a.lq
  kp : b.kp = a.kp
  snd : b.snd = { a.snd with chirp := b.snd.chirp }
  pres : PresStep a.pres b.pres
  link : b.link = { a.link with flags := b.link.flags, ran := b.link.ran }

/-- R201, R202: every item has its reset value, as State.reset has it, in CONFIG; the queue, the external lamp latches and the
level of the CSN pin, with the hold that its fall came in, are not the part's own. -/
def ClearedFrom (a b : State) : Prop :=
  b.pending = a.pending ∧ b.ctl.mode = .config ∧ b.pt = State.reset.pt ∧ b.nt = State.reset.nt ∧ b.shelf = State.reset.shelf ∧
  b.lq = State.reset.lq ∧ b.kp = State.reset.kp ∧ b.snd = State.reset.snd ∧
  b.pres = { State.reset.pres with lamps := a.pres.lamps } ∧ b.link = { State.reset.link with csnLow := b.link.csnLow, muted := b.link.muted }

/-- R156, R176, R122, R128, R137, R140: what the pins do while the part is held in reset: no transaction, MISO at high impedance,
ATTN released, the horn off, no output line energized, the lamp chain lines low, no dot lit. -/
def HeldSilent (t : State) : Prop :=
  t.inReset = true ∧ t.link.trans = none ∧ (∀ falls, t.misoPin falls = none) ∧ t.attn = false ∧ t.snd.horn = false ∧
  (∀ k, t.outEnergized k = false) ∧
  (∀ l m, t.chainLine l m = false) ∧ (∀ x y, t.panelDot x y = false)

/-- Every condition but that of the points named is as it was. -/
def SameConds (a b : State) (except : List Pt) : Prop := ∀ p, p ∉ except → b.active p = a.active p

/-- The live notice of every point but those named is as it was. -/
def SameNotices (a b : State) (except : List Pt) : Prop := ∀ p, p ∉ except → b.notice? p = a.notice? p

/-! ## The requests by kind, length and mode -/

/-- The kind code under which a request row runs (R184 to R198). -/
def kindOf (i : Instr) : Option Byte :=
  match i with
  | .identify _ => some 0x01 | .status _ => some 0x02 | .writePoint _ => some 0x10 | .readPoint _ => some 0x11
  | .writeGroup _ => some 0x12 | .readGroup _ => some 0x13 | .writeLine _ => some 0x14 | .readLine _ => some 0x15
  | .writePanel _ => some 0x16 | .readPanel _ => some 0x17 | .writeOutput _ => some 0x18 | .setOutput _ => some 0x35
  | .keyLock _ => some 0x33 | .setMessage _ => some 0x34 | .lampTest _ => some 0x36 | .raise _ => some 0x20
  | .clear _ => some 0x21 | .acknowledge _ => some 0x22 | .reset _ => some 0x23 | .silence _ => some 0x24
  | .retire _ => some 0x25 | .shelve _ => some 0x26 | .unshelve _ => some 0x27 | .lookup _ => some 0x28
  | .list _ => some 0x29 | .pending _ => some 0x2A | .shelf _ => some 0x2B | .readEvents _ => some 0x30
  | .clearEvents _ => some 0x31 | .eventEnable _ => some 0x32 | .start _ => some 0x3E | .stop _ => some 0x3F
  | _ => none

/-- R182: the lengths that stage 2 of R180 accepts for a request. -/
def lengthFits (i : Instr) : Bool :=
  match i with
  | .identify p | .status p | .readPanel p | .silence p | .readEvents p | .lampTest p | .start p | .stop p => p.length = 0
  | .readPoint p | .clear p | .retire p | .unshelve p | .lookup p | .readGroup p | .readLine p | .pending p | .shelf p
  | .clearEvents p | .eventEnable p | .keyLock p => p.length = 1
  | .acknowledge p | .reset p | .shelve p | .list p | .setOutput p => p.length = 2
  | .writeGroup p | .writeOutput p => p.length = 4
  | .writeLine p => p.length = 6
  | .writePanel p => p.length = 7
  | .raise p => 2 ≤ p.length && p.length ≤ 8
  | .setMessage p => p.length ≤ 20
  | .writePoint p => 8 ≤ p.length && p.length ≤ 40 && p.length = 8 + (p.getD 7 0).toNat
  | _ => true

/-- R10, R14, R88, R128, R130, R179, R187 to R196: the payloads whose fields all lie in their ranges and encodings, of a length
that fits. -/
def argsFit (i : Instr) : Bool :=
  let field (p : List Byte) (k : Nat) : Nat := (p.getD k 0).toNat
  let yesNo (p : List Byte) (k : Nat) : Bool := field p k ≤ 1
  let upTo (n : Nat) (p : List Byte) (k : Nat) : Bool := field p k ≤ n || field p k = 0xFF
  let chars (p : List Byte) : Bool := p.all fun c => 0x20 ≤ c.toNat && c.toNat ≤ 0x7E
  match i with
  | .writePoint p =>
    field p 0 ≤ 127 && field p 1 ≤ 2 && field p 2 ≤ 2 && field p 3 ≤ 15 && upTo 47 p 4 && upTo 127 p 5 && field p 6 ≤ 240 &&
      field p 7 ≤ 16 && chars (p.drop 8)
  | .writeGroup p => field p 0 ≤ 15 && 1 ≤ field p 1 && field p 1 ≤ 4 && yesNo p 2 && yesNo p 3
  | .writeLine p =>
    field p 0 ≤ 31 && upTo 127 p 1 && field p 2 ≤ 1 && 1 ≤ field p 3 && field p 3 ≤ 250 && 1 ≤ field p 4 && field p 4 ≤ 250 &&
      (field p 5 = 0 || (3 ≤ field p 5 && field p 5 ≤ 15))
  | .writePanel p =>
    field p 0 ≤ 1 && field p 1 ≤ 1 && 1 ≤ field p 2 && field p 2 ≤ 5 && field p 3 ≤ 60 && 5 ≤ field p 5 && field p 5 ≤ 120 &&
      10 ≤ field p 6 && field p 6 ≤ 250
  | .writeOutput p =>
    field p 0 ≤ 3 && yesNo p 3 &&
      (match field p 1 with
       | 1 | 2 => 1 ≤ field p 2 && field p 2 ≤ 4
       | 4 => field p 2 ≤ 15
       | 0 | 3 | 5 | 6 => field p 2 = 0
       | _ => false)
  | .raise p =>
    field p 0 ≤ 127 &&
      ((field p 1 = 0 && p.length = 2) || (field p 1 = 1 && p.length = 4) ||
        (field p 1 = 2 && 3 ≤ p.length && chars (p.drop 2)))
  | .acknowledge p | .reset p =>
    (field p 0 = 0 && field p 1 ≤ 129) || (field p 0 = 1 && field p 1 ≤ 15) || (field p 0 = 2 && field p 1 = 0)
  | .shelve p => field p 0 ≤ 129 && 1 ≤ field p 1 && field p 1 ≤ 240
  | .readPoint p | .retire p | .unshelve p | .lookup p => field p 0 ≤ 129
  | .clear p | .pending p => field p 0 ≤ 127
  | .readLine p => field p 0 ≤ 31
  | .readGroup p | .shelf p => field p 0 ≤ 15
  | .setOutput p => field p 0 ≤ 3 && yesNo p 1
  | .keyLock p => field p 0 ≤ 63
  | .setMessage p => chars p
  | .list p => field p 1 ≤ 2
  | _ => true

/-- R181: the mode that refuses a request outright. -/
def refusingMode (i : Instr) : Option Mode :=
  match i with
  | .raise _ | .clear _ | .acknowledge _ | .reset _ | .silence _ | .retire _ | .shelve _ | .unshelve _ | .stop _ => some .config
  | .start _ | .writeLine _ => some .run
  | _ => none

/-- R200: the commands that stand while the oscillator stands: all but those of the CSN pin, of power and reset, and of the
oscillator itself. -/
def standsStill (i : Instr) : Bool :=
  match i with
  | .csnFall | .transactionEnd _ _ | .powerOn | .supplyFall | .resetnFall | .resetnRise | .oscillatorStop
  | .oscillatorRestart => false
  | _ => true

/-! ## What a fresh raise does at a notice -/

/-- R38: the group of an ALARM or CAUTION point grants first-out to a fresh raise of the point. -/
def FirstOutGrant (s : State) (u : UserPt) : Prop :=
  let g := (s.pointRec u).group
  (s.pointRec u).cls ≠ .indication ∧ (s.groupRec g).firstOutEnable = true ∧ (s.groupRec g).marker = none ∧
  (∀ x ∈ s.nt.notices, x.point ≠ UserPt.pt u → s.groupOf x.point = some g → x.phase ≠ .alert ∧ x.phase ≠ .fleeting) ∧
  s.suppressed (UserPt.pt u) = false

/-- R35: the event that assigns the number 65 535 to the notice of a point renumbers the live notices in their order. -/
def Renumbers (s t : State) (p : Pt) : Prop :=
  let others := s.nt.notices.filter fun x => x.point ≠ p
  t.nt.arrival = others.length + 2 ∧
  ((∀ x ∈ others, x.arrival < 65535) → Holds (t.notice? p) fun m => m.arrival = others.length + 1) ∧
  ∀ q n, q ≠ p → s.notice? q = some n →
    Holds (t.notice? q) fun m => m = { n with arrival := m.arrival } ∧
      (n.arrival < 65535 → m.arrival = (others.filter fun x => x.arrival < n.arrival).length + 1)

/-- R34, R35: one new arrival number goes to the notice of a point, and no other record changes. -/
def TakesNumber (s t : State) (p : Pt) : Prop :=
  (s.nt.arrival < 65535 →
    t.nt.arrival = s.nt.arrival + 1 ∧ (Holds (t.notice? p) fun m => m.arrival = s.nt.arrival) ∧ SameNotices s t [p]) ∧
  (s.nt.arrival = 65535 → Renumbers s t p)

/-- R22, R24, R25, R29, R38, R57, R61, R69: what a line raise of the point that line l alone binds does: a notice is created, or
one in FLEETING or RETURNED raised again, with first-out by the group's grant; with the 48 records in use the point enters the
Pending Set, and the first to enter raises PANEL OVERFLOW. A raise by the entry into chatter hold (`hold`) sets CHATTER and
marks the notice, a change of its own where the notice was there before (R98). -/
def LineRaises (s t : State) (l : LineNo) (u : UserPt) (hold : Bool) : Prop :=
  let p := UserPt.pt u
  let g := (s.pointRec u).group
  let ind := (s.pointRec u).cls = .indication
  let flags := s.link.flags ||| (if hold then AttnEvent.chatter.mask else 0)
  let event (alert : Prop) [Decidable alert] (rev : BitVec 16) : Prop :=
    t.nt.rev = rev ∧ t.nt.pendSet = s.nt.pendSet ∧ t.link.flags = flags ||| (if alert then AttnEvent.newAlert.mask else 0) ∧
    (FirstOutGrant s u → (t.groupRec g).marker = some u) ∧
    (¬FirstOutGrant s u → (t.groupRec g).marker = (s.groupRec g).marker) ∧ TakesNumber s t p
  (s.notice? p = none → s.userCount < 48 →
    event (¬ind) (s.nt.rev + 1) ∧
    Holds (t.notice? p) fun m =>
      m.phase = (if ind then .standing else .alert) ∧ m.level = (s.groupRec g).level ∧ m.count = 1 ∧
      (m.firstOut = true ↔ FirstOutGrant s u) ∧ m.silenced = false ∧ m.realert = none ∧ m.stale = false ∧
      m.field = .none ∧ m.rev = s.nt.rev + 1 ∧
      ((∀ k, (s.lineRec k).bound = some u → k = l) → m.origin = .line l ∧ m.chattering = hold)) ∧
  (∀ n, s.notice? p = some n → n.phase = .fleeting ∨ n.phase = .returned →
    let rev := s.nt.rev + if hold = true ∧ n.chattering = false then 2 else 1
    event True rev ∧
    Holds (t.notice? p) fun m =>
      m = { n with phase := .alert, count := min 255 (n.count + 1), silenced := false, realert := none,
                   chattering := hold || n.chattering, rev := rev, arrival := m.arrival, firstOut := m.firstOut } ∧
      (m.firstOut = true ↔ n.firstOut = true ∨ FirstOutGrant s u)) ∧
  (s.notice? p = none → 48 ≤ s.userCount →
    t.notice? p = none ∧ (∀ v, v ∈ t.nt.pendSet ↔ v = u ∨ v ∈ s.nt.pendSet) ∧
    (s.nt.pendSet = [] → t.flagged .overflow = true ∧ t.active panelOverflow = true) ∧
    (s.nt.pendSet ≠ [] → t.nt.notices = s.nt.notices ∧ t.link.flags = flags) ∧
    ∀ q n, q ≠ panelOverflow → s.notice? q = some n →
      Holds (t.notice? q) fun m => m = { n with arrival := m.arrival })

/-! ## What a clear, an ack and a release do at a notice -/

/-- R26, R29: what a clear of a user point leaves of its live notice n. -/
def ClearMoves (s t : State) (u : UserPt) (n : Notice) : Prop :=
  let c := (s.pointRec u).cls
  let q := (s.pointRec u).seq
  (c = .indication → t.notice? (UserPt.pt u) = none ∧ t.flagged .retired = true) ∧
  (c ≠ .indication → n.phase = .alert →
    Holds (t.notice? (UserPt.pt u)) fun m => m = { n with phase := .fleeting, rev := m.rev }) ∧
  (c ≠ .indication → n.phase = .standing → q = .auto →
    t.notice? (UserPt.pt u) = none ∧ t.flagged .retired = true) ∧
  (c ≠ .indication → n.phase = .standing → q ≠ .auto →
    Holds (t.notice? (UserPt.pt u)) fun m => m = { n with phase := .returned, rev := m.rev })

/-- R27, R29: what an ack leaves of the live notice n of a point. -/
def AckMoves (s t : State) (n : Notice) : Prop :=
  let c := s.classOf n.point
  let q := s.seqOf n.point
  let acked (ph : Phase) :=
    Holds (t.notice? n.point) fun m =>
      m = { n with phase := ph, firstOut := false, silenced := false, realert := none, arrival := m.arrival, rev := m.rev }
  let same := Holds (t.notice? n.point) fun m => m = { n with arrival := m.arrival }
  let retired := t.notice? n.point = none ∧ t.flagged .retired = true
  (c = .indication → same) ∧
  (c ≠ .indication → n.phase = .alert → acked .standing) ∧
  (c ≠ .indication → n.phase = .standing → same) ∧
  (c ≠ .indication → n.phase = .fleeting → q = .manual → acked .returned) ∧
  (c ≠ .indication → n.phase = .fleeting → q ≠ .manual → retired) ∧
  (c ≠ .indication → n.phase = .returned → q = .ringback → retired) ∧
  (c ≠ .indication → n.phase = .returned → q ≠ .ringback → same)

/-- R75 step 3, R83: what the return of a point's notice to view does: in ALERT or FLEETING, unless another cause withholds it,
the silenced flag and the realert countdown go and NEW_ALERT is set; otherwise the record stands. -/
def ReturnMoves (s t : State) (p : Pt) : Prop :=
  ∀ n, s.notice? p = some n →
    (s.suppressed p = false → n.phase.unseen = true →
      t.flagged .newAlert = true ∧
      Holds (t.notice? p) fun m =>
        m = if n.silenced then { n with silenced := false, realert := none, rev := s.nt.rev + 1 } else n) ∧
    (s.suppressed p = true ∨ n.phase.unseen = false → t.notice? p = some n)

/-- R62: what a clear of a user point does to its membership of the Pending Set: an INDICATION is withdrawn, and PANEL OVERFLOW
clears with the last member; an ALARM or CAUTION stays. -/
def PendingMoves (s t : State) (u : UserPt) : Prop :=
  s.notice? (UserPt.pt u) = none → u ∈ s.nt.pendSet →
    t.notice? (UserPt.pt u) = none ∧
    ((s.pointRec u).cls = .indication →
      t.nt.pendSet = (s.nt.pendSet.filter fun v => v ≠ u) ∧ (t.nt.pendSet = [] → t.active panelOverflow = false)) ∧
    ((s.pointRec u).cls ≠ .indication → t.nt.pendSet = s.nt.pendSet)

/-- R79, R81: the points whose parent is ACTIVE are suppressed, and their notices are out of the presented view. -/
def Suppresses (t : State) (u : UserPt) : Prop :=
  ∀ v, (t.pointRec v).parent = some u →
    t.suppressed (UserPt.pt v) = true ∧ ∀ n ∈ t.presented, n.point ≠ UserPt.pt v

/-- R81, R83, R84: what the release of a child does: it is not suppressed any more; a live notice in ALERT or FLEETING that is
not shelved loses the silenced flag with its realert countdown, and NEW_ALERT is set; every other stands. -/
def ChildReleased (s t : State) (v : UserPt) : Prop :=
  t.suppressed (UserPt.pt v) = false ∧
  ∀ n, s.notice? (UserPt.pt v) = some n →
    (s.shelved (UserPt.pt v) = false → n.phase = .alert ∨ n.phase = .fleeting →
      t.flagged .newAlert = true ∧
      Holds (t.notice? (UserPt.pt v)) fun m =>
        m = if n.silenced then { n with silenced := false, realert := none, arrival := m.arrival, rev := m.rev }
          else { n with arrival := m.arrival }) ∧
    (s.shelved (UserPt.pt v) = true ∨ n.phase = .standing ∨ n.phase = .returned →
      Holds (t.notice? (UserPt.pt v)) fun m => m = { n with arrival := m.arrival })

/-- R81: the clear of a parent releases its children. -/
def ReleaseMoves (s t : State) (u : UserPt) : Prop := ∀ v, (s.pointRec v).parent = some u → ChildReleased s t v

/-! ## What a frame reads -/

/-- The decimal digit of a number that stands at a power of ten, as a character. -/
def digitAt (n k : Nat) : Byte := BitVec.ofNat 8 (0x30 + n / 10 ^ k % 10)

/-- Cells of a row, from the first on, hold a text: left-aligned, cut at their number, padded with spaces. -/
def ReadsAt (row : Vector Byte 20) (first cells : Nat) (t : Text) : Prop :=
  ∀ i : Fin 20, first ≤ i.val → i.val < first + cells → row.get i = (t[i.val - first]?).getD 0x20

/-- R147, R148: a row shows a notice with a label: the marker of the first precedence that applies; with no field the label in
cells 1 to 16 and the raise count after it; with a field 13 cells of label and then the field, a number right-aligned. -/
def NoticeLineReads (row : Vector Byte 20) (n : Notice) (label : Text) : Prop :=
  row.get 0 =
    (if n.stale then 0x3F else if n.chattering then 0x23
     else match n.phase with
       | .alert => 0x21
       | .fleeting => 0x7E
       | .returned => 0x3C
       | .standing => 0x20) ∧
  match n.field with
  | .none =>
    ReadsAt row 1 16 label ∧
    (n.count = 1 → ReadsAt row 17 3 []) ∧
    (2 ≤ n.count → n.count ≤ 9 → ReadsAt row 17 3 [0x78, digitAt n.count 0]) ∧
    (10 ≤ n.count → n.count ≤ 99 → ReadsAt row 17 3 [0x78, digitAt n.count 1, digitAt n.count 0]) ∧
    (100 ≤ n.count → ReadsAt row 17 3 [0x78, 0x2B, 0x2B])
  | .value v =>
    ReadsAt row 1 13 label ∧
    ∀ k : Fin 6, row.get ⟨19 - k.val, by omega⟩ =
      (if k.val = 0 ∨ 10 ^ k.val ≤ v.toInt.natAbs then digitAt v.toInt.natAbs k.val
       else if v.toInt < 0 ∧ 10 ^ (k.val - 1) ≤ v.toInt.natAbs then 0x2D
       else 0x20)
  | .text t => ReadsAt row 1 13 label ∧ ReadsAt row 14 6 t

/-- R149: a row shows the status line: U, P and S with their counts, the mark of a non-empty Pending Set, and the first visible
position of the P presented, each count in two digits and at most 99. -/
def StatusLineReads (row : Vector Byte 20) (c : Snapshot) : Prop :=
  let two (n : Nat) : Text := [digitAt (min n 99) 1, digitAt (min n 99) 0]
  ReadsAt row 0 1 [0x55] ∧ ReadsAt row 1 2 (two c.unack) ∧ ReadsAt row 3 2 [0x20, 0x50] ∧ ReadsAt row 5 2 (two c.presented) ∧
  ReadsAt row 7 2 [0x20, 0x53] ∧ ReadsAt row 9 2 (two c.shelfCount) ∧
  ReadsAt row 11 3 [0x20, if c.overflow then 0x4F else 0x20, 0x20] ∧
  ReadsAt row 14 2 (if c.presented = 0 then [0x30, 0x30] else two (c.top + 1)) ∧ ReadsAt row 16 1 [0x2F] ∧
  ReadsAt row 17 2 (two c.presented) ∧ ReadsAt row 19 1 [if 0 < c.top then 0x5E else 0x20]

/-- R147, R148: a row of a frame is notice row i of a snapshot: the notice line with the marker attribute of the notice's
pattern, or blank and STEADY where no notice has the place. -/
def NoticeRowReads (f : Frame) (r : Fin 4) (c : Snapshot) (i : Nat) : Prop :=
  (∀ x, c.rows[i]? = some x → NoticeLineReads (f.cells.get r) x.1 x.2 ∧ f.marks.get r = askedPattern x.1) ∧
  (c.rows[i]? = none → ReadsAt (f.cells.get r) 0 20 [] ∧ f.marks.get r = .steady)

/-- R153: what a snapshot takes of a state: the mode, the line mode, the window top, the at most L notices of the window with
their labels (R147: POINT and three digits for an empty one), the counts of the status line, the mark and the message. -/
def SnapshotTakes (s : State) (c : Snapshot) : Prop :=
  let lines := match s.pres.lineMode with
    | .fourLine => 3
    | .twoLine => 2
  let label (p : Pt) : Text :=
    if s.labelOf p = [] then [0x50, 0x4F, 0x49, 0x4E, 0x54, 0x20, digitAt p.val 2, digitAt p.val 1, digitAt p.val 0]
    else s.labelOf p
  c.mode = s.ctl.mode ∧ c.lineMode = s.pres.lineMode ∧ c.top = s.pres.top ∧ c.rows.length ≤ lines ∧
  (∀ i : Fin lines, c.rows[i.val]? = (s.presented[s.pres.top + i.val]?).map fun n => (n, label n.point)) ∧
  c.unack = (s.presented.filter fun n => n.phase ≠ Phase.standing).length ∧ c.presented = s.presented.length ∧
  c.shelfCount = s.shelf.length ∧ (c.overflow = true ↔ s.nt.pendSet ≠ []) ∧ c.message = s.pres.message

/-! ## What the end of an event does to the window and the chirp burst -/

/-- R144, R145, R152: anchoring on the way from s to t: follow the anchor, clamp to the limit, jump to the top for an ALERT
notice that `shown` names and that stands above the window; the anchor is the notice at the window top, the scroll-hold timer
starts when the top leaves 0 while it is stopped, and a composition is in progress. -/
def Anchors (s t : State) (shown : Pt → Prop) : Prop :=
  let limit := t.presented.length - (match t.pres.lineMode with
    | .fourLine => 3
    | .twoLine => 2)
  let jumps (top : Nat) := ∃ i : Fin t.presented.length,
    i.val < top ∧ (t.presented.get i).phase = .alert ∧ shown (t.presented.get i).point
  let lands (top : Nat) := (jumps (min top limit) → t.pres.top = 0) ∧ (¬jumps (min top limit) → t.pres.top = min top limit)
  (∀ i : Fin t.presented.length, s.pres.anchor = some (t.presented.get i).point → lands i.val) ∧
  ((∀ n ∈ t.presented, s.pres.anchor ≠ some n.point) → lands s.pres.top) ∧
  t.pres.anchor = t.presented[t.pres.top]?.map (·.point) ∧
  t.pres.scrollTimer =
    (if s.pres.top = 0 ∧ 0 < t.pres.top ∧ s.pres.scrollTimer = none then some { left := t.pres.scrollHold, due := false }
     else s.pres.scrollTimer) ∧
  t.pres.composer ≠ .idle ∧ t.pres.composer ≠ .ready

/-- R56, R144: an event that changes the presented view anchors the window; one that does not leaves it. What counts as a
change of the view is log 12. -/
def WindowFollows (s t : State) (shown : Pt → Prop) : Prop :=
  let view (x : State) := x.presented.map fun n => (n.point, n.phase, n.level)
  (view s ≠ view t → Anchors s t shown) ∧
  (view s = view t →
    t.pres.top = s.pres.top ∧ t.pres.anchor = s.pres.anchor ∧ t.pres.scrollTimer = s.pres.scrollTimer)

/-- R123, R124: a steady pattern ends a chirp burst; a running burst goes on otherwise; with neither, a burst starts exactly if
a level-1 notice that `shown` names is left in ALERT and sounding. -/
def ChirpFollows (s t : State) (shown : Pt → Prop) : Prop :=
  let steady := t.hornPattern ≠ .chirp ∧ t.hornPattern ≠ .silent
  let trigger := ∃ n ∈ t.nt.notices, shown n.point ∧ n.level = 1 ∧ n.phase = .alert ∧ t.sounding n = true
  (steady → t.snd.chirp = none) ∧
  (¬steady → s.snd.chirp ≠ none → t.snd.chirp = s.snd.chirp) ∧
  (¬steady → s.snd.chirp = none → (trigger → t.snd.chirp = some 0) ∧ (¬trigger → t.snd.chirp = none))

/-! ## Laws of the state -/

/-- R24, R57, R60: the notices and the Pending Set stand in ascending point number, one of a point; at most 48 notices of user
points are live; no pending point has a notice; a non-empty Pending Set means 48 user records in use, and the
condition of point 129 is ACTIVE exactly then (R5). -/
abbrev State.TableOk (s : State) : Prop :=
  s.nt.notices.Pairwise (fun a b => a.point < b.point) ∧
  s.nt.pendSet.Pairwise (fun u v => u < v) ∧
  s.userCount ≤ Config.userRecords ∧
  (∀ u ∈ s.nt.pendSet, s.notice? (UserPt.pt u) = none) ∧
  (s.nt.pendSet ≠ [] → s.userCount = Config.userRecords) ∧
  (s.active panelOverflow = true ↔ s.nt.pendSet ≠ [])

/-- R199: in CONFIG the Notice Table, the Pending Set and the Shelf List are empty. -/
abbrev State.ConfigEmpty (s : State) : Prop :=
  s.ctl.mode = .config → s.nt.notices = [] ∧ s.nt.pendSet = [] ∧ s.shelf = []

/-- R26: condition consistency of the live notices; R16: no notice and no pending point of a disabled group; R62: a pending
INDICATION point is ACTIVE. -/
abbrev State.ServiceOk (s : State) : Prop :=
  (∀ n ∈ s.nt.notices, s.active n.point = (decide (n.phase = .alert) || decide (n.phase = .standing))) ∧
  (∀ n ∈ s.nt.notices, ∀ g, s.groupOf n.point = some g → (s.groupRec g).enabled = true) ∧
  (∀ u ∈ s.nt.pendSet,
    s.groupEnabled u = true ∧ ((s.pointRec u).cls = .indication → s.active (UserPt.pt u) = true))

/-- R163 (its table): a taken request runs in WORKING alone, the reply slot is full in REPLY_READY alone, and a transaction that
carries a reply carries the one in the slot (R157); a muted transaction is not taken, and CSN is low in it (R202). -/
abbrev State.LinkOk (s : State) : Prop :=
  (s.link.state = .working ↔ s.link.taken.isSome = true) ∧
  (s.link.state = .replyReady ↔ s.link.slot.isSome = true) ∧
  (∀ t, s.link.trans = some t → t.reply.isSome = true → s.link.state = .replyReady ∧ t.reply = s.link.slot) ∧
  (s.link.muted = true → s.link.csnLow = true ∧ s.link.trans = none)

/-- R70, R71: at most 16 entries, one of a point, each with 1 to 14 400 seconds, in order of expiry. -/
abbrev State.ShelfOk (s : State) : Prop :=
  s.shelf.length ≤ Config.shelfEntries ∧
  s.shelf.Pairwise (fun a b => a.point ≠ b.point ∧ a.time.left ≤ b.time.left) ∧
  (∀ e ∈ s.shelf, 1 ≤ e.time.left ∧ e.time.left ≤ 14400)

/-- R143: the window top lies within its limit. -/
abbrev State.WindowOk (s : State) : Prop := s.pres.top ≤ s.topLimit

/-- R124: no chirp burst runs while a steady pattern applies. -/
abbrev State.ChirpOk (s : State) : Prop := s.snd.chirp.isSome = true → s.steadyPattern = none

/-- R82: in RUN no point is its own parent and no point's parent has a parent. -/
abbrev State.ParentsOk (s : State) : Prop := s.ctl.mode = .run → ∀ u, s.offending u = false

end Sys2Proof.Machine
end

