-- ==== Sys2Proof/Certificates/Slice0/Obligations.lean ====
section
/-! DEFINITION. The statements for the provers, one definition each. They speak in the words of Sys2Proof/Safety.lean:
`Reaches` (the command completes, in a state as said), `Holds` (there is a value, as said), the frames, and the laws of the
state. OBLIGATIONS.json gives each its title and the rules it rests on; a clause that rests on a choice of the model names its
log entry here. -/

section

open Sys2Proof Sys2Proof.Machine

/-! ## The step and the laws that every step keeps -/

/-- A step takes the command at the front of the queue and runs it on the state with the queue's rest; on an empty queue the
block idles (log 1). -/
def Obligations.StepTakesTheFrontCommand : Prop :=
  ∀ (c : Instr) (rest : List Instr) (s : State),
    step (s.withPending (c :: rest)) = exec c (s.withPending rest) ∧
    step (s.withPending []) = .next (s.withPending [])

/-- The state after reset, item by item, at the values that the chapters give. Four clauses are the model's choice: the queue is
the model's own and empty (log 1), State.reset is the part right after reset exit, so that it is in service and takes the first
command at once (log 19), and a lock mask of 0 is every key unlocked (log 27). -/
def Obligations.ResetLeavesTheDefaults : Prop :=
  State.reset.ctl.mode = .config ∧ State.reset.inService = true ∧
  (∀ u, State.reset.pointRec u =
    { label := [], cls := .alarm, seq := .auto, group := 0, tile := none, parent := none, shelveLimit := 0 }) ∧
  (∀ g, State.reset.groupRec g = { level := 2, enabled := true, firstOutEnable := false, marker := none }) ∧
  (∀ p, State.reset.active p = false) ∧
  State.reset.nt = { notices := [], pendSet := [], arrival := 1, rev := 0 } ∧ State.reset.shelf = [] ∧
  (∀ l, (State.reset.lineRec l).bound = none ∧ (State.reset.lineRec l).polarity = .normal ∧
    (State.reset.lineRec l).qualifyOn = 5 ∧ (State.reset.lineRec l).qualifyOff = 5 ∧
    (State.reset.lineRec l).chatterLimit = 0 ∧ (State.reset.lineRec l).state = .quiet ∧
    (State.reset.lineRec l).hold = .none ∧ (State.reset.lineRec l).count = 0 ∧ (State.reset.lineRec l).timer = none ∧
    (State.reset.lineRec l).sample = false) ∧
  State.reset.lq.window = 60 ∧
  (∀ k, State.reset.keyRec k = { sample := false, state := .open, repeatTimer := none }) ∧
  State.reset.kp.lock = 0 ∧ State.reset.kp.testRunning = false ∧ State.reset.kp.testLeft = 0 ∧
  State.reset.snd.floor = 1 ∧ State.reset.snd.realertMin = 0 ∧ State.reset.snd.chirp = none ∧
  State.reset.snd.oddCycle = false ∧ State.reset.snd.horn = false ∧ State.reset.hornPattern = .silent ∧
  (∀ k, State.reset.snd.outs.get k = { mode := .off, param := 0, inverted := false, hostValue := false } ∧
    State.reset.outEnergized k = false) ∧
  State.reset.pres.step = 0 ∧ State.reset.pres.lineMode = .fourLine ∧ State.reset.pres.orient = .normal ∧
  State.reset.pres.scrollHold = 30 ∧ State.reset.pres.message = [] ∧ State.reset.pres.top = 0 ∧
  State.reset.pres.anchor = none ∧ State.reset.pres.scrollTimer = none ∧ State.reset.pres.composer = .idle ∧
  State.reset.pres.dirty = false ∧ State.reset.pres.refresh = none ∧
  State.reset.pres.back = State.reset.pres.front ∧
  ((State.reset.pres.front.cells.get 0).toList =
    [0x4F, 0x55, 0x54, 0x20, 0x4F, 0x46, 0x20, 0x53, 0x45, 0x52, 0x56, 0x49, 0x43, 0x45,
     0x20, 0x20, 0x20, 0x20, 0x20, 0x20]) ∧
  (∀ r : Fin 4, r ≠ 0 → (State.reset.pres.front.cells.get r).toList = List.replicate 20 0x20) ∧
  (∀ r : Fin 4, State.reset.pres.front.marks.get r = .steady) ∧
  State.reset.link.state = .idle ∧ State.reset.link.outcome = .none ∧ State.reset.link.fresh = true ∧
  State.reset.link.slot = none ∧ State.reset.link.taken = none ∧ State.reset.link.supSetting = 0 ∧
  State.reset.link.sup = .off ∧ State.reset.link.supTimer = none ∧ State.reset.link.flags = 0 ∧
  State.reset.link.enables = 0 ∧ State.reset.link.trans = none ∧ State.reset.attn = false ∧ State.reset.statusByte = 0x05 ∧
  State.reset.pending = []

/-- Every law of the state holds at reset. -/
def Obligations.ResetKeepsEveryLaw : Prop :=
  State.reset.TableOk ∧ State.reset.ConfigEmpty ∧ State.reset.ServiceOk ∧ State.reset.LinkOk ∧ State.reset.ShelfOk ∧
  State.reset.WindowOk ∧ State.reset.ChirpOk ∧ State.reset.ParentsOk

/-- Capacity, order and the Pending Set (R24, R57, R60) are kept by every step. -/
def Obligations.StepKeepsTheTable : Prop :=
  ∀ s t : State, s.TableOk → step s = .next t → t.TableOk

/-- Emptiness in CONFIG (R199) is kept by every step. -/
def Obligations.StepKeepsConfigEmpty : Prop :=
  ∀ s t : State, s.ConfigEmpty → step s = .next t → t.ConfigEmpty

/-- Condition consistency (R26), and no notice and no pending point of a disabled group (R16), are kept by every step. -/
def Obligations.StepKeepsConditionConsistency : Prop :=
  ∀ s t : State, s.TableOk → s.ConfigEmpty → s.ServiceOk → step s = .next t → t.ServiceOk

/-- The link state says where the one request stands (9.4); every step keeps that. -/
def Obligations.StepKeepsTheLinkState : Prop :=
  ∀ s t : State, s.LinkOk → step s = .next t → t.LinkOk

/-- The window top stays within 0 and its limit (R143, R146) in every step. -/
def Obligations.StepKeepsTheWindowTop : Prop :=
  ∀ s t : State, s.ConfigEmpty → s.WindowOk → step s = .next t → t.WindowOk

/-- The bounds and the order of the Shelf List (R70, R71), no chirp burst under a steady pattern (R124), and the parent structure
in RUN (R82), are each kept by every step. -/
def Obligations.StepKeepsShelfChirpAndParents : Prop :=
  ∀ s t : State, step s = .next t →
    (s.ShelfOk → t.ShelfOk) ∧ (s.ChirpOk → t.ChirpOk) ∧ (s.ParentsOk → t.ParentsOk)

/-! ## Power, reset, oscillator -/

/-- Entry into reset by power-on, a falling supply or RESETN: every item takes its reset value, everything in flight is gone,
and the pins are silent. That the items take their values at the entry already is log 10, that the oscillator runs log 7. -/
def Obligations.EntryIntoResetClearsThePart : Prop :=
  ∀ s : State,
    (Reaches (exec .powerOn s) fun t =>
      ClearedFrom s t ∧ HeldSilent t ∧
      t.ctl = { s.ctl with mode := .config, supplyOk := true, powerHold := true, oscRunning := true } ∧
      t.link.csnLow = s.link.csnLow ∧ t.link.muted = s.link.muted) ∧
    (Reaches (exec .supplyFall s) fun t =>
      ClearedFrom s t ∧ HeldSilent t ∧
      t.ctl = { s.ctl with mode := .config, supplyOk := false, powerHold := true, oscRunning := true } ∧
      t.link.csnLow = s.link.csnLow ∧ t.link.muted = s.link.muted) ∧
    (Reaches (exec .resetnFall s) fun t =>
      ClearedFrom s t ∧ HeldSilent t ∧
      t.ctl = { s.ctl with mode := .config, resetnLow := true, pinHold := true, oscRunning := true } ∧
      t.link.csnLow = s.link.csnLow ∧ t.link.muted = s.link.muted)

/-- SOFT_RESET: a frame of kind 0x7F that passes the frame and CRC checks resets the part at its CSN rise, whatever its tag,
its payload, the bytes after it, the link state and the reply slot. -/
def Obligations.SoftResetFrameResetsThePart : Prop :=
  ∀ (s : State) (tr : Transaction) (tag : Byte) (payload filler : List Byte) (bits stray : List Bool),
    s.inService = true → s.link.csnLow = true → s.link.trans = some tr → payload.length ≤ 40 →
    wholeBytes bits = requestFrame 0x7F tag payload ++ filler →
    Reaches (exec (.transactionEnd bits stray) s) fun t =>
      ClearedFrom s t ∧ HeldSilent t ∧ t.ctl = { s.ctl with mode := .config, softHold := true } ∧ t.link.csnLow = false ∧
      t.link.muted = false

/-- Leaving reset: RESETN rises and still holds the part; the part leaves at reset exit, at its reset values, and only with
the supply in range, RESETN high and the oscillator running. A transaction whose CSN fell inside the hold of a SOFT_RESET finds
MISO at high impedance after reset exit too (R202). -/
def Obligations.ResetExitEndsTheHold : Prop :=
  ∀ s : State,
    (s.ctl.resetnLow = true → exec .resetnRise s = .next (s.withCtl { s.ctl with resetnLow := false })) ∧
    (s.inReset = true → s.ctl.supplyOk = true → s.ctl.resetnLow = false → s.ctl.oscRunning = true →
      Reaches (exec .resetExit s) fun t =>
        ClearedFrom s t ∧
        t.ctl = { s.ctl with mode := .config, powerHold := false, pinHold := false, softHold := false } ∧
        t.link.csnLow = s.link.csnLow ∧ t.link.muted = s.link.muted ∧ t.inService = true ∧ t.statusByte = 0x05 ∧
        (s.link.muted = true → ∀ falls, t.misoPin falls = none)) ∧
    (s.ctl.supplyOk = false ∨ s.ctl.resetnLow = true → exec .resetExit s = .next s)

/-- The oscillator stops and runs again: every command but those of the CSN pin, of power and reset, and of the oscillator
finds the state standing, and stopping and restarting change nothing else. That the oscillator does not stop while power-on or
RESETN holds the part is log 7. -/
def Obligations.EverythingStandsWithTheOscillator : Prop :=
  ∀ (s : State) (c : Instr),
    (s.ctl.powerHold = false → s.ctl.pinHold = false →
      exec .oscillatorStop s = .next (s.withCtl { s.ctl with oscRunning := false })) ∧
    exec .oscillatorRestart s = .next (s.withCtl { s.ctl with oscRunning := true }) ∧
    (s.ctl.oscRunning = false → standsStill c = true → exec c s = .next s)

/-! ## The host link -/

/-- R158: the link status byte, sampled at the CSN fall and sent as MISO byte 0. -/
def Obligations.LinkStatusByteReportsTheLink : Prop :=
  ∀ s : State,
    (s.statusByte.extractLsb' 6 2 =
      match s.link.state with
      | .idle => 0b00
      | .working => 0b01
      | .replyReady => 0b10) ∧
    (s.statusByte.extractLsb' 3 3 =
      match s.link.outcome with
      | .none => 0b000
      | .taken => 0b001
      | .refusedBusy => 0b010
      | .refusedUnread => 0b011
      | .badCrc => 0b100
      | .badFrame => 0b101) ∧
    s.statusByte.getLsbD 2 = s.link.fresh ∧ s.statusByte.getLsbD 1 = s.attn ∧ s.statusByte.getLsbD 0 = true ∧
    s.statusByte.extractLsb' 6 2 ≠ 0b11 ∧ s.statusByte.extractLsb' 3 3 ≠ 0b110 ∧ s.statusByte.extractLsb' 3 3 ≠ 0b111 ∧
    s.statusByte ≠ 0x00 ∧ s.statusByte ≠ 0xFF ∧
    State.reset.statusByte = 0x05 ∧
    (s.link.state = .replyReady → s.link.outcome = .taken → s.link.fresh = false → s.attn = true → s.statusByte = 0x8B) ∧
    (s.inService = true → s.link.csnLow = false →
      Reaches (exec .csnFall s) fun t => Holds t.link.trans fun tr => tr.miso 0 = s.statusByte)

/-- CSN falls: the MISO bytes are fixed: the status byte, then the waiting reply if the link is REPLY_READY, then 0x00; MISO
leaves high impedance and presents them most significant bit first, the first bit at the CSN fall and the next at each falling edge
of SCK. While the part takes no transaction only the pin falls (R156, R201, log 6); inside the hold of a SOFT_RESET it is held
that MISO stays at high impedance to the CSN rise (R202). -/
def Obligations.CsnFallFixesTheMisoBytes : Prop :=
  ∀ s : State, s.link.csnLow = false →
    (∀ falls, s.misoPin falls = none) ∧
    (s.inService = true →
      let tr : Transaction := { status := s.statusByte, reply := if s.link.state = .replyReady then s.link.slot else none }
      let t := s.withLink { s.link with csnLow := true, muted := false, trans := some tr }
      exec .csnFall s = .next t ∧ ∀ falls, t.misoPin falls = some ((tr.miso (falls / 8)).getLsbD (7 - falls % 8))) ∧
    (s.inService = false →
      let t := s.withLink { s.link with csnLow := true, muted := s.ctl.softHold, trans := none }
      exec .csnFall s = .next t ∧ (s.inReset = true → ∀ falls, t.misoPin falls = none)) ∧
    (∀ (v : State) (falls : Nat), v.link.muted = true → v.link.trans = none → v.misoPin falls = none) ∧
    (∀ (tr : Transaction) (f : ReplyFrame) (i : Nat), tr.reply = some f →
      tr.miso (i + 1) = (f.bytes[i]?).getD 0x00 ∧ f.bytes.length = 4 + f.payload.length) ∧
    (∀ (tr : Transaction) (i : Nat), tr.reply = none → tr.miso (i + 1) = 0x00)

/-- R162: the CRC of both kinds of frame. -/
def Obligations.CrcFollowsItsParameters : Prop :=
  crc8 [] = 0xFF ∧
  (∀ (bytes : List Byte) (b : Byte), crc8 (bytes ++ [b]) = crcShift^[8] (crc8 bytes ^^^ b)) ∧
  (∀ r : Byte, crcShift r = if r.getLsbD 7 then (r <<< 1) ^^^ 0x2F else r <<< 1) ∧
  crc8 [0x02] = 0x1C ∧ crc8 [0x02, 0x15] = 0x78 ∧ crc8 [0x02, 0x15, 0x00] = 0x6C ∧
  requestFrame 0x02 0x15 [] = [0x02, 0x15, 0x00, 0x6C] ∧
  (∀ bytes : List Byte, crc8 (bytes ++ [crc8 bytes]) = 0x00) ∧
  (∀ (kind tag : Byte) (p : List Byte),
    requestFrame kind tag p = [kind, tag, byteOf p.length] ++ p ++ [crc8 ([kind, tag, byteOf p.length] ++ p)]) ∧
  (∀ f : ReplyFrame,
    f.bytes = [f.result.code, f.tag, byteOf f.payload.length] ++ f.payload ++
      [crc8 ([f.result.code, f.tag, byteOf f.payload.length] ++ f.payload)])

/-- The checks of R163 in their order, on the Link as the consumption of R166 left it. -/
def Obligations.FrameIsJudgedInOrder : Prop :=
  ∀ (k : Link) (kind : Byte) (rest : List Byte),
    let mosi := kind :: rest
    let n := (mosi.getD 2 0).toNat
    (kind = 0x00 → k.judge mosi = .poll) ∧
    (kind ≠ 0x00 → mosi.length < 4 → k.judge mosi = .badFrame) ∧
    (kind ≠ 0x00 → 4 ≤ mosi.length → 40 < n → k.judge mosi = .badFrame) ∧
    (kind ≠ 0x00 → 4 ≤ mosi.length → n ≤ 40 → mosi.length < 4 + n → k.judge mosi = .badFrame) ∧
    (kind ≠ 0x00 → n ≤ 40 → 4 + n ≤ mosi.length → crc8 (mosi.take (4 + n)) ≠ 0x00 → k.judge mosi = .badCrc) ∧
    (kind ≠ 0x00 → n ≤ 40 → 4 + n ≤ mosi.length → crc8 (mosi.take (4 + n)) = 0x00 →
      (kind = 0x7F → k.judge mosi = .softReset) ∧
      (kind ≠ 0x7F → k.state = .working → k.judge mosi = .refusedBusy) ∧
      (kind ≠ 0x7F → k.state ≠ .working → k.slot.isSome = true → k.judge mosi = .refusedUnread) ∧
      (kind ≠ 0x7F → k.state ≠ .working → k.slot = none →
        k.judge mosi = .taken { kind := kind, tag := mosi.getD 1 0, payload := (mosi.drop 3).take n }))

/-- CSN rises: each eighth rising edge of SCK has completed a byte on MOSI, most significant bit first, and the bits after the last
are discarded (R156). On a transaction with at least one whole byte the reply is consumed if it was clocked out whole, the frame is
judged, and the Link takes the outcome; with no whole byte, or a transaction that the part did not take, only the pin rises.
That a transaction which began before the oscillator stopped is not judged at a CSN rise while it stands is log 6. -/
def Obligations.TransactionEndTakesItsJudgement : Prop :=
  ∀ (s : State) (bits stray : List Bool),
    s.link.csnLow = true →
    let mosi := wholeBytes bits
    (mosi.length = bits.length / 8 ∧
      ∀ (i : Fin mosi.length) (j : Fin 8), bits[8 * i.val + j.val]? = some ((mosi.get i).getLsbD (7 - j.val))) ∧
    ((mosi = [] ∨ s.link.trans = none ∨ s.inService = false) →
      exec (.transactionEnd bits stray) s = .next (s.withLink { s.link with csnLow := false, trans := none, muted := false })) ∧
    ∀ tr, s.link.trans = some tr →
      (tr.consumes mosi.length = true ↔ Holds tr.reply fun f => 5 + f.payload.length ≤ mosi.length) ∧
      let k := if tr.consumes mosi.length then { s.link with slot := none, state := .idle } else s.link
      let j := k.judge mosi
      (mosi ≠ [] → s.inService = true → j ≠ .softReset →
        Reaches (exec (.transactionEnd bits stray) s) fun t =>
          t.link.csnLow = false ∧ t.link.trans = none ∧ t.link.muted = false ∧
          (j = .poll → t.link.outcome = .none) ∧ (j = .badFrame → t.link.outcome = .badFrame) ∧
          (j = .badCrc → t.link.outcome = .badCrc) ∧ (j = .refusedBusy → t.link.outcome = .refusedBusy) ∧
          (j = .refusedUnread → t.link.outcome = .refusedUnread) ∧
          (∀ x, j.request? = some x →
            t.link.outcome = .taken ∧ t.link.state = .working ∧ t.link.taken = some x ∧ t.link.fresh = false ∧
            t.link.slot = none) ∧
          (j.request? = none →
            t.link.state = k.state ∧ t.link.taken = k.taken ∧ t.link.fresh = k.fresh ∧ t.link.slot = k.slot ∧
            t.link.ran = k.ran) ∧
          (j = .badFrame ∨ j = .badCrc → t.flagged .linkFault = true ∧ t.nt = s.nt ∧ t.pt = s.pt ∧
            t.link.flags = s.link.flags ||| AttnEvent.linkFault.mask) ∧
          t.link.enables = s.link.enables ∧ t.link.supSetting = s.link.supSetting ∧
          EventFrame (s.withLink t.link) t)

/-- A restarting transaction and supervision (R170, R172): none in OFF, the timer set in RUNNING, the host's return in EXPIRED;
a faulty frame restarts nothing. -/
def Obligations.RestartingTransactionHearsTheHost : Prop :=
  ∀ (s : State) (bits stray : List Bool) (tr : Transaction),
    s.TableOk → s.inService = true → s.link.csnLow = true → s.link.trans = some tr → 8 ≤ bits.length →
    let mosi := wholeBytes bits
    let j := (s.link.consume (tr.consumes mosi.length)).judge mosi
    let running := some { left := s.link.supSetting, due := false : Countdown }
    (j ≠ .softReset → j ≠ .badFrame → j ≠ .badCrc →
      Reaches (exec (.transactionEnd bits stray) s) fun t =>
        (s.link.sup = .off → t.link.sup = .off ∧ t.link.supTimer = s.link.supTimer ∧ t.nt = s.nt ∧ t.pt = s.pt) ∧
        (s.link.sup = .running → t.link.sup = .running ∧ t.link.supTimer = running ∧ t.nt = s.nt ∧ t.pt = s.pt) ∧
        (s.link.sup = .expired →
          t.link.sup = .running ∧ t.link.supTimer = running ∧ t.active hostSilent = false ∧ SameConds s t [hostSilent] ∧
          (∀ n ∈ t.nt.notices, n.stale = false) ∧ t.nt.pendSet = s.nt.pendSet ∧
          (∀ p n, p ≠ hostSilent → s.notice? p = some n →
            Holds (t.notice? p) fun m => m = { n with stale := false, rev := m.rev }) ∧
          (s.ctl.mode = .run → s.active hostSilent = true → ∀ n, s.notice? hostSilent = some n →
            (n.phase = .alert → Holds (t.notice? hostSilent) fun m => m.phase = .fleeting) ∧
            (n.phase = .standing → t.notice? hostSilent = none ∧ t.flagged .retired = true)))) ∧
    (j = .badFrame ∨ j = .badCrc →
      Reaches (exec (.transactionEnd bits stray) s) fun t =>
        t.link.sup = s.link.sup ∧ t.link.supTimer = s.link.supTimer ∧ t.nt = s.nt ∧ t.pt = s.pt)

/-- The end of a run: the reply that the taken request's run made is placed, under the request's tag (R165; that placement
takes the reply from the run is log 2). -/
def Obligations.PlacementFillsTheReplySlot : Prop :=
  ∀ (s : State) (x : Taken) (r : Ran),
    s.inService = true → s.link.state = .working → s.link.taken = some x → s.link.ran = some r → r.kind = x.kind →
    r.request = x.payload →
    exec .replyPlacement s = .next (s.withLink { s.link with
      slot := some { result := r.result, tag := x.tag, payload := r.reply }
      state := .replyReady
      taken := none
      ran := none
      flags := s.link.flags ||| AttnEvent.reply.mask })

/-- Supervision expires (R171): EXPIRED with the timer stopped, HOST SILENT raised, every notice of LINK origin stale. The mark
that the timer has run out is log 3. -/
def Obligations.SupervisionExpiryRaisesHostSilent : Prop :=
  ∀ (s : State) (c : Countdown),
    s.TableOk → s.ServiceOk → s.inModeNow .run → s.link.sup = .running → s.link.supTimer = some c → c.due = true →
    Reaches (exec .supervisionExpiry s) fun t =>
      EventFrame (s.withLink { s.link with sup := .expired, supTimer := none }) t ∧
      t.active hostSilent = true ∧ SameConds s t [hostSilent] ∧ t.nt.pendSet = s.nt.pendSet ∧
      (s.active hostSilent = false →
        (Holds (t.notice? hostSilent) fun m => m.phase = .alert) ∧ t.flagged .newAlert = true) ∧
      (∀ p n, p ≠ hostSilent → s.notice? p = some n →
        Holds (t.notice? p) fun m =>
          if n.origin = .link then m = { n with stale := true, arrival := m.arrival, rev := m.rev }
          else m = { n with arrival := m.arrival })

/-! ## Requests: stages and reports -/

/-- The stages of R180 with the lengths of R182 and the modes of R181: an unknown kind, then the length, then the mode, then
the fields outside their ranges. Every request of Chapter 10 completes with an answer, and one that is refused changes nothing
but the reply it makes. -/
def Obligations.RequestStagesRefuseInOrder : Prop :=
  ∀ (i : Instr) (k : Byte) (p : List Byte) (s : State), s.inService = true →
    (kindOf i = some k → i.payload? = some p →
      Reaches (exec i s) fun t =>
        Holds t.link.ran fun r =>
          r.kind = k ∧ r.request = p ∧ (r.result ≠ .ok → r.result ≠ .refreshed → t = s.recordRun r)) ∧
    (kindOf i = some k → i.payload? = some p → lengthFits i = false → exec i s = .next (s.replied k p .badLength [])) ∧
    (kindOf i = some k → i.payload? = some p → lengthFits i = true → refusingMode i = some s.ctl.mode →
      exec i s = .next (s.replied k p .wrongMode [])) ∧
    (kindOf i = some k → i.payload? = some p → lengthFits i = true → refusingMode i ≠ some s.ctl.mode →
      (argsFit i = false → exec i s = .next (s.replied k p .badArgument [])) ∧
      (argsFit i = true → Reaches (exec i s) fun t =>
        Holds t.link.ran fun r => r.result ≠ .badArgument ∧ r.result ≠ .badLength ∧ r.result ≠ .unknownKind)) ∧
    (k ≠ 0x00 → k ≠ 0x7F → k ∉ knownKinds → exec (.unknownKind k p) s = .next (s.replied k p .unknownKind []))

/-- R184: IDENTIFY and STATUS. -/
def Obligations.IdentifyAndStatusReport : Prop :=
  ∀ s : State, s.inService = true →
    exec (.identify []) s =
      .next (s.replied 0x01 [] .ok [0x3A, 0x71, 0x0A, 0x48, 0x01, if s.ctl.mode = .run then 1 else 0]) ∧
    exec (.status []) s =
      .next (s.replied 0x02 [] .ok
        ([if s.ctl.mode = .run then 1 else 0, byteOf s.userCount, byteOf s.nt.pendSet.length, byteOf s.shelf.length] ++
          be16 s.nt.rev.toNat ++ [s.hornPattern.code, s.link.sup.code, s.link.flags]))

/-- R18, R89, R183: READ_POINT, READ_GROUP, READ_LINE and READ_PANEL report the records as they stand. The chatter timer that
READ_LINE reports once it has run out and before its expiry is taken, 1, is log 3; the raw level that it reports before the
first sample, inactive, is log 26, and after a polarity write before that sample log 30. Points 128 and 129 report the fixed values of R3. -/
def Obligations.RecordReportsReadTheRecords : Prop :=
  ∀ s : State, s.inService = true →
    (∀ p : Pt, exec (.readPoint [byteOf p.val]) s =
      .next (s.replied 0x11 [byteOf p.val] .ok
        ([byteOf p.val, (s.sourceOf p).code, bit (s.active p), (s.classOf p).code, (s.seqOf p).code,
          match s.groupOf p with
          | some g => byteOf g.val
          | none => 16,
          byteOf (s.levelOf p), optByte (s.tileOf p), optByte (s.parentOf p), byteOf (s.shelveLimitOf p),
          byteOf (s.labelOf p).length] ++ s.labelOf p))) ∧
    exec (.readPoint [128]) s =
      .next (s.replied 0x11 [128] .ok
        [128, 0x81, bit (s.active hostSilent), 0, 0, 16, 3, 0xFF, 0xFF, 0, 11,
         0x48, 0x4F, 0x53, 0x54, 0x20, 0x53, 0x49, 0x4C, 0x45, 0x4E, 0x54]) ∧
    exec (.readPoint [129]) s =
      .next (s.replied 0x11 [129] .ok
        [129, 0x81, bit (s.active panelOverflow), 0, 0, 16, 3, 0xFF, 0xFF, 0, 14,
         0x50, 0x41, 0x4E, 0x45, 0x4C, 0x20, 0x4F, 0x56, 0x45, 0x52, 0x46, 0x4C, 0x4F, 0x57]) ∧
    (∀ g : GroupNo, exec (.readGroup [byteOf g.val]) s =
      .next (s.replied 0x13 [byteOf g.val] .ok
        [byteOf g.val, byteOf (s.groupRec g).level, bit (s.groupRec g).enabled, bit (s.groupRec g).firstOutEnable,
         optByte (s.groupRec g).marker])) ∧
    (∀ l : LineNo, exec (.readLine [byteOf l.val]) s =
      .next (s.replied 0x15 [byteOf l.val] .ok
        [byteOf l.val, optByte (s.lineRec l).bound, (s.lineRec l).polarity.code, byteOf (s.lineRec l).qualifyOn,
         byteOf (s.lineRec l).qualifyOff, byteOf (s.lineRec l).chatterLimit, bit (s.lineRec l).sample,
         (s.lineRec l).state.code, (s.lineRec l).hold.code, bit (s.lineRec l).qualified, bit (s.lineRec l).held,
         byteOf (s.lineRec l).count, byteOf (secondsLeft (s.lineRec l).timer)])) ∧
    exec (.readPanel []) s =
      .next (s.replied 0x17 [] .ok
        ([s.pres.lineMode.code, s.pres.orient.code, byteOf s.snd.floor, byteOf s.snd.realertMin, byteOf s.link.supSetting,
          byteOf s.pres.scrollHold, byteOf s.lq.window, s.kp.lock.setWidth 8, bit s.kp.testRunning] ++
         ([0, 1, 2, 3] : List OutNo).flatMap fun k =>
           [(s.snd.outs.get k).mode.code, byteOf (s.snd.outs.get k).param,
            bit (s.snd.outs.get k).inverted ||| (bit (s.snd.outs.get k).hostValue <<< 1) |||
              (bit (s.outEnergized k) <<< 2)]))

/-- R194 to R196: LOOKUP, LIST, PENDING and SHELF report the table, the Pending Set and the Shelf List; R50: the Rank List holds
every live notice exactly once, in the order of its three keys; and R55: the presented view is the Rank List without the notices
whose point has a shelf entry or an ACTIVE parent. The seconds that LOOKUP and SHELF report of a countdown that has run out and
whose expiry is still to be taken, 1, are log 3; that LOOKUP carries no label is log 24. -/
def Obligations.TableReportsReadTheTable : Prop :=
  ∀ s : State, s.inService = true →
    let bucket (n : Notice) : Nat := match n.phase with
      | .alert => 0
      | .fleeting => 1
      | .returned => 2
      | .standing => 3
    s.rankList.Perm s.nt.notices ∧
    (s.rankList.Pairwise fun a b =>
      b.level < a.level ∨ (a.level = b.level ∧
        (bucket a < bucket b ∨ (bucket a = bucket b ∧ a.arrival ≤ b.arrival)))) ∧
    (∀ n ∈ s.nt.notices,
      let flags := s.noticeFlags n
      flags.getLsbD 0 = n.firstOut ∧ flags.getLsbD 1 = n.silenced ∧ flags.getLsbD 2 = n.stale ∧
      flags.getLsbD 3 = n.chattering ∧ flags.getLsbD 4 = (s.shelfEntry? n.point).isSome ∧
      (flags.getLsbD 5 = true ↔ ∃ q, s.parentOf n.point = some q ∧ s.active (UserPt.pt q) = true) ∧
      flags.getLsbD 6 = n.realert.isSome ∧ flags.getLsbD 7 = s.sounding n) ∧
    s.presented = (s.rankList.filter fun n => s.withheld n.point = false) ∧
    (∀ p : Pt, s.withheld p = false ↔
      s.shelfEntry? p = none ∧ (∀ q, s.parentOf p = some q → s.active (UserPt.pt q) = false)) ∧
    (∀ (p : Pt) (n : Notice), s.notice? p = some n →
      exec (.lookup [byteOf p.val]) s =
        .next (s.replied 0x28 [byteOf p.val] .ok
          ([byteOf p.val, bit (s.active p), n.phase.code, n.origin.code, byteOf n.level] ++ be16 n.arrival ++
            [byteOf n.count, s.noticeFlags n] ++ be16 (secondsLeft n.realert) ++ be16 (s.shelfLeft p) ++
            be16 n.rev.toNat ++ n.field.bytes))) ∧
    (∀ p : Pt, s.notice? p = none →
      exec (.lookup [byteOf p.val]) s =
        .next (s.replied 0x28 [byteOf p.val] .noNotice
          ([byteOf p.val, bit (s.active p), bit (s.isPending p)] ++ be16 (s.shelfLeft p)))) ∧
    (∀ (start : Byte) (f : ListFilter),
      let F : List Notice := match f with
        | .all => s.rankList
        | .presented => s.presented
        | .unack => s.presented.filter fun n => n.phase ≠ Phase.standing
      let code : Byte := match f with
        | .all => 0
        | .presented => 1
        | .unack => 2
      let k := min 3 (F.length - start.toNat)
      exec (.list [start, code]) s =
        .next (s.replied 0x29 [start, code] .ok
          (be16 s.nt.rev.toNat ++ [byteOf F.length, start, byteOf k] ++
            ((F.drop start.toNat).take k).flatMap fun n =>
              [byteOf n.point.val, n.phase.code, byteOf n.level, s.noticeFlags n, byteOf n.count] ++ be16 n.arrival ++
                be16 n.rev.toNat))) ∧
    (∀ u : UserPt,
      let members := (s.nt.pendSet.filter fun v => u ≤ v).take 36
      exec (.pending [byteOf u.val]) s =
        .next (s.replied 0x2A [byteOf u.val] .ok
          ([byteOf s.nt.pendSet.length, byteOf members.length] ++ members.map fun v => byteOf v.val))) ∧
    (∀ i : Fin 16,
      let entries := (s.shelf.drop i.val).take 12
      exec (.shelf [byteOf i.val]) s =
        .next (s.replied 0x2B [byteOf i.val] .ok
          ([byteOf s.shelf.length, byteOf i.val, byteOf entries.length] ++
            entries.flatMap fun e => byteOf e.point.val :: be16 e.time.left)))

/-- R177: READ_EVENTS, CLEAR_EVENTS and EVENT_ENABLE; ATTN follows, and placement sets REPLY again. -/
def Obligations.EventRequestsActOnTheFlags : Prop :=
  ∀ (s : State) (m : Byte), s.inService = true →
    exec (.readEvents []) s = .next (s.replied 0x30 [] .ok [s.link.flags, s.link.enables]) ∧
    (s.ChirpOk →
      exec (.clearEvents [m]) s =
        .next ((s.withLink { s.link with flags := s.link.flags &&& ~~~m }).replied 0x31 [m] .ok []) ∧
      exec (.eventEnable [m]) s = .next ((s.withLink { s.link with enables := m }).replied 0x32 [m] .ok [])) ∧
    (s.attn = true ↔ ∃ b : Nat, s.link.flags.getLsbD b = true ∧ s.link.enables.getLsbD b = true) ∧
    (∀ f : ReplyFrame, (s.withLink (s.link.place f)).flagged .reply = true)

/-! ## Configuration -/

/-- WRITE_POINT in CONFIG replaces the record of one point and nothing else (R10). -/
def Obligations.WritePointInConfigReplacesTheRecord : Prop :=
  ∀ (s : State) (u : UserPt) (r : PointRec),
    s.ConfigEmpty → s.ChirpOk → s.inModeNow .config → r.label.length ≤ 16 → r.label.all printable = true →
    r.shelveLimit ≤ 240 →
    exec (.writePoint (pointPayload u r)) s =
      .next ((s.withPt { s.pt with points := s.pt.points.set u.val r }).replied 0x10 (pointPayload u r) .ok [])

/-- WRITE_POINT in RUN: refused for a live point (R11), then for a broken parent structure (R12); accepted otherwise, with the
one exception to the condition (R13), which releases the point's children without an edge (R81, R83); the window and the chirp
burst follow (R144, R123, and R152 as log 13 reads it; log 12). -/
def Obligations.WritePointInRunIsChecked : Prop :=
  ∀ (s : State) (u : UserPt) (r : PointRec),
    s.inModeNow .run → r.label.length ≤ 16 → r.label.all printable = true → r.shelveLimit ≤ 240 →
    let live := s.notice? (UserPt.pt u) ≠ none ∨ u ∈ s.nt.pendSet ∨ s.shelfEntry? (UserPt.pt u) ≠ none
    let breaks := ∃ y, r.parent = some y ∧
      (y = u ∨ (s.pointRec y).parent ≠ none ∨ ∃ z, z ≠ u ∧ (s.pointRec z).parent = some u)
    (live → exec (.writePoint (pointPayload u r)) s = .next (s.replied 0x10 (pointPayload u r) .pointLive [])) ∧
    (¬live → breaks → exec (.writePoint (pointPayload u r)) s = .next (s.replied 0x10 (pointPayload u r) .badParent [])) ∧
    (¬live → ¬breaks →
      Reaches (exec (.writePoint (pointPayload u r)) s) fun t =>
        EventFrame (s.withPt { s.pt with points := s.pt.points.set u.val r }) t ∧
        t.link.ran = some { kind := 0x10, request := pointPayload u r, result := .ok, reply := [] } ∧
        (t.active (UserPt.pt u) =
          if s.linkSourced u = true ∧ (s.groupRec r.group).enabled = false then false else s.active (UserPt.pt u)) ∧
        SameConds s t [UserPt.pt u] ∧ t.nt.pendSet = s.nt.pendSet ∧ t.nt.arrival = s.nt.arrival ∧
        (t.active (UserPt.pt u) = s.active (UserPt.pt u) → t.nt = s.nt) ∧
        (s.TableOk → s.ParentsOk → s.active (UserPt.pt u) = true → t.active (UserPt.pt u) = false →
          ReleaseMoves s t u ∧
          WindowFollows s t (fun q => s.parentOf q = some u) ∧ ChirpFollows s t (fun q => s.parentOf q = some u)))

/-- WRITE_GROUP that neither disables nor re-enables in RUN: the three fields are stored, the marker is not, and a level change
of an enabled group in RUN gives every live notice of the group the new level, each one change to its record (R14, R15); the
window and the chirp burst follow (R144, R123). What counts as a change of the view is log 12, and that every change of it
requests a composition is R152 as log 13 reads it. -/
def Obligations.WriteGroupStoresAndRelevels : Prop :=
  ∀ (s : State) (a : GroupWrite),
    s.TableOk → s.ChirpOk → s.inService = true → 1 ≤ a.level → a.level ≤ 4 →
    let old := s.groupRec a.group
    let stored := s.withPt { s.pt with
      groups := s.pt.groups.set a.group.val
        { old with level := a.level, enabled := a.enabled, firstOutEnable := a.firstOutEnable } }
    (s.ctl.mode = .config ∨ (old.enabled = a.enabled ∧ (old.enabled = false ∨ old.level = a.level)) →
      exec (.writeGroup a.payload) s = .next (stored.replied 0x12 a.payload .ok [])) ∧
    (s.ctl.mode = .run → old.enabled = true → a.enabled = true → old.level ≠ a.level →
      Reaches (exec (.writeGroup a.payload) s) fun t =>
        EventFrame stored t ∧ t.link.ran = some { kind := 0x12, request := a.payload, result := .ok, reply := [] } ∧
        t.pt = stored.pt ∧ t.nt.pendSet = s.nt.pendSet ∧ t.nt.arrival = s.nt.arrival ∧ t.link.flags = s.link.flags ∧
        t.nt.rev = s.nt.rev + BitVec.ofNat 16 (s.groupNotices a.group).length ∧
        (∀ p n, s.notice? p = some n →
          Holds (t.notice? p) fun m =>
            if s.groupOf p = some a.group then m = { n with level := a.level, rev := m.rev } else m = n) ∧
        WindowFollows s t (fun _ => False) ∧ ChirpFollows s t (fun _ => False))

/-- Group disable (R16): no notice, no pending point, no ACTIVE link-sourced point and no marker of the group is left; points
of other groups keep their notices and phases, and the children among them of the points that went CLEAR are released without
an edge (R81, R83; log 21). -/
def Obligations.GroupDisableEmptiesTheGroup : Prop :=
  ∀ (s : State) (a : GroupWrite),
    s.TableOk → s.ServiceOk → s.inModeNow .run → 1 ≤ a.level → a.level ≤ 4 → (s.groupRec a.group).enabled = true →
    a.enabled = false →
    Reaches (exec (.writeGroup a.payload) s) fun t =>
      EventFrame (s.withPt { s.pt with
        groups := s.pt.groups.set a.group.val
          { s.groupRec a.group with level := a.level, enabled := false, firstOutEnable := a.firstOutEnable } }) t ∧
      t.link.ran = some { kind := 0x12, request := a.payload, result := .ok, reply := [] } ∧
      (t.groupRec a.group).marker = none ∧
      (∀ u v, (s.pointRec u).group = a.group → s.linkSourced u = true → s.active (UserPt.pt u) = true →
        (s.pointRec v).parent = some u → (s.pointRec v).group ≠ a.group → ChildReleased s t v) ∧
      (∀ n ∈ t.nt.notices, t.groupOf n.point ≠ some a.group) ∧
      (∀ u ∈ t.nt.pendSet, (t.pointRec u).group ≠ a.group) ∧
      (∀ u, t.active (UserPt.pt u) =
        (s.active (UserPt.pt u) && !(decide ((s.pointRec u).group = a.group) && s.linkSourced u))) ∧
      t.active hostSilent = s.active hostSilent ∧
      (∀ u n, (s.pointRec u).group ≠ a.group → s.notice? (UserPt.pt u) = some n →
        Holds (t.notice? (UserPt.pt u)) fun m => m.phase = n.phase ∧ m.count = n.count ∧ m.firstOut = n.firstOut) ∧
      ((∃ n ∈ s.nt.notices, s.groupOf n.point = some a.group) → t.flagged .retired = true)

/-- Group re-enable (R17): every line-bound ACTIVE point of the group gets a notice, or waits in the Pending Set; no other point
of the group does. -/
def Obligations.GroupReEnableRaisesTheGroup : Prop :=
  ∀ (s : State) (a : GroupWrite),
    s.TableOk → s.ServiceOk → s.inModeNow .run → 1 ≤ a.level → a.level ≤ 4 → (s.groupRec a.group).enabled = false →
    a.enabled = true →
    Reaches (exec (.writeGroup a.payload) s) fun t =>
      EventFrame (s.withPt { s.pt with
        groups := s.pt.groups.set a.group.val
          { s.groupRec a.group with level := a.level, enabled := true, firstOutEnable := a.firstOutEnable } }) t ∧
      t.link.ran = some { kind := 0x12, request := a.payload, result := .ok, reply := [] } ∧
      (t.groupRec a.group).marker = (s.groupRec a.group).marker ∧
      SameConds s t [panelOverflow] ∧
      (∀ u, (s.pointRec u).group = a.group →
        if s.linkSourced u = false ∧ s.active (UserPt.pt u) = true then
          u ∈ t.nt.pendSet ∨
          Holds (t.notice? (UserPt.pt u)) fun m =>
            m.phase = (if (s.pointRec u).cls = .indication then .standing else .alert) ∧ m.level = a.level ∧ m.count = 1 ∧
            m.firstOut = false ∧ m.silenced = false ∧ m.stale = false ∧ m.field = .none ∧
            m.chattering = s.inChatter (UserPt.pt u)
        else t.notice? (UserPt.pt u) = none ∧ u ∉ t.nt.pendSet) ∧
      (∀ u n, (s.pointRec u).group ≠ a.group → s.notice? (UserPt.pt u) = some n →
        Holds (t.notice? (UserPt.pt u)) fun m => m = { n with arrival := m.arrival }) ∧
      (∀ u ∈ s.nt.pendSet, u ∈ t.nt.pendSet)

/-- WRITE_LINE (R2, R88): the configuration fields, the polarity as a raw change, the release by a limit of 0, the conditions of
the points whose source changes; refused for a point that another line binds. That a polarity write qualifies with the time
just written is log 15; that a polarity write before the line's first sample reverses the inactive level which that sample would
be compared with is log 30. -/
def Obligations.WriteLineRebindsTheLine : Prop :=
  ∀ (s : State) (a : LineWrite),
    s.ConfigEmpty → s.ChirpOk → s.inModeNow .config → 1 ≤ a.qualifyOn → a.qualifyOn ≤ 250 → 1 ≤ a.qualifyOff →
    a.qualifyOff ≤ 250 → (a.chatterLimit = 0 ∨ (3 ≤ a.chatterLimit ∧ a.chatterLimit ≤ 15)) →
    let conflict := ∃ u, a.bound = some u ∧ ∃ l, l ≠ a.line ∧ (s.lineRec l).bound = some u
    let r := s.lineRec a.line
    (conflict → exec (.writeLine a.payload) s = .next (s.replied 0x14 a.payload .sourceConflict [])) ∧
    (¬conflict →
      Reaches (exec (.writeLine a.payload) s) fun t =>
        t = ((s.withLq t.lq).withPt { s.pt with cond := t.pt.cond }).replied 0x14 a.payload .ok [] ∧
        t.lq.window = s.lq.window ∧ (∀ l, l ≠ a.line → t.lineRec l = s.lineRec l) ∧
        (let w := t.lineRec a.line
         w.bound = a.bound ∧ w.polarity = a.polarity ∧ w.qualifyOn = a.qualifyOn ∧ w.qualifyOff = a.qualifyOff ∧
         w.chatterLimit = a.chatterLimit ∧
         (r.polarity = a.polarity → w.state = r.state ∧ w.sample = r.sample ∧ w.qualify = r.qualify) ∧
         (r.polarity ≠ a.polarity → w.sample = !r.sample) ∧
         (r.polarity ≠ a.polarity → r.sample = false → r.state = .quiet → w.state = .rising ∧ w.qualify = a.qualifyOn) ∧
         (r.polarity ≠ a.polarity → r.sample = false → r.state = .falling → w.state = .active ∧ w.qualify = 0) ∧
         (r.polarity ≠ a.polarity → r.sample = true → r.state = .active → w.state = .falling ∧ w.qualify = a.qualifyOff) ∧
         (r.polarity ≠ a.polarity → r.sample = true → r.state = .rising → w.state = .quiet ∧ w.qualify = 0) ∧
         (if a.chatterLimit = 0 ∧ r.chatterLimit ≠ 0 then w.hold = .none ∧ w.count = 0 ∧ w.timer = none
          else w.hold = r.hold ∧ w.count = r.count ∧ w.timer = r.timer) ∧
         (r.bound ≠ a.bound →
           (∀ u, r.bound = some u → t.active (UserPt.pt u) = false) ∧
           (∀ u, a.bound = some u → t.active (UserPt.pt u) = w.held)) ∧
         (r.bound = a.bound → r.held ≠ w.held → ∀ u, a.bound = some u → t.active (UserPt.pt u) = w.held) ∧
         (r.bound = a.bound → r.held = w.held → t.pt.cond = s.pt.cond)) ∧
        (∀ p, (∀ u, r.bound = some u → p ≠ UserPt.pt u) → (∀ u, a.bound = some u → p ≠ UserPt.pt u) →
          t.active p = s.active p))

/-- WRITE_PANEL (R187): every setting is stored; realert 0 removes the countdowns (R44), a supervision setting that changes in
RUN acts (R173), a floor raised above 1 ends a burst (R120), which otherwise stands unless a steady pattern comes to apply (R124),
and a new line mode or orientation, and nothing else, requests a composition; refused in RUN for a line mode that would change
(R142). -/
def Obligations.WritePanelStoresTheSettings : Prop :=
  ∀ (s : State) (a : PanelSettings),
    s.inService = true → 1 ≤ a.floor → a.floor ≤ 5 → a.realertMin ≤ 60 → a.supervision ≤ 255 → 5 ≤ a.scrollHold →
    a.scrollHold ≤ 120 → 10 ≤ a.window → a.window ≤ 250 →
    let turned := s.ctl.mode = .run ∧ s.pres.lineMode ≠ a.lineMode
    (turned → exec (.writePanel a.payload) s = .next (s.replied 0x16 a.payload .wrongMode [])) ∧
    (¬turned →
      Reaches (exec (.writePanel a.payload) s) fun t =>
        t.link.ran = some { kind := 0x16, request := a.payload, result := .ok, reply := [] } ∧ t.panelSettings = a ∧
        t.pending = s.pending ∧ t.ctl = s.ctl ∧ t.pt = s.pt ∧ t.shelf = s.shelf ∧ t.kp = s.kp ∧ t.lq.lines = s.lq.lines ∧
        t.snd.outs = s.snd.outs ∧ t.snd.horn = s.snd.horn ∧ t.snd.oddCycle = s.snd.oddCycle ∧
        t.pres.step = s.pres.step ∧ t.pres.message = s.pres.message ∧ t.pres.top = s.pres.top ∧
        t.pres.anchor = s.pres.anchor ∧ t.pres.scrollTimer = s.pres.scrollTimer ∧ t.pres.front = s.pres.front ∧
        t.pres.back = s.pres.back ∧ t.pres.scan = s.pres.scan ∧ t.pres.refresh = s.pres.refresh ∧
        t.pres.lamps = s.pres.lamps ∧
        t.link = { s.link with supSetting := a.supervision, sup := t.link.sup, supTimer := t.link.supTimer,
                               ran := t.link.ran } ∧
        (if s.link.supSetting ≠ a.supervision ∧ s.ctl.mode = .run then
           (if a.supervision = 0 then t.link.sup = .off ∧ t.link.supTimer = none
            else t.link.sup = .running ∧ t.link.supTimer = some { left := a.supervision, due := false })
         else t.link.sup = s.link.sup ∧ t.link.supTimer = s.link.supTimer) ∧
        t.nt = { s.nt with notices :=
          if s.snd.realertMin ≠ a.realertMin ∧ a.realertMin = 0 then s.nt.notices.map fun n => { n with realert := none }
          else s.nt.notices } ∧
        (s.snd.floor ≠ a.floor → 1 < a.floor → t.snd.chirp = none) ∧
        (s.ChirpOk → s.snd.floor = a.floor → t.snd.chirp = s.snd.chirp) ∧
        (a.floor = 1 → t.hornPattern = .chirp ∨ t.hornPattern = .silent → t.snd.chirp = s.snd.chirp) ∧
        (s.pres.lineMode ≠ a.lineMode ∨ s.pres.orient ≠ a.orient →
          t.pres.composer ≠ .idle ∧ t.pres.composer ≠ .ready) ∧
        (s.pres.lineMode = a.lineMode → s.pres.orient = a.orient →
          t.pres.composer = s.pres.composer ∧ t.pres.dirty = s.pres.dirty))

/-- WRITE_OUTPUT, SET_OUTPUT and the level of an output line (R128 to R130). -/
def Obligations.OutputLinesFollowTheirRecords : Prop :=
  ∀ (s : State) (a : OutWrite) (k : OutNo) (v : Bool),
    (s.ChirpOk → s.inService = true → a.mode.paramOk a.param = true →
      exec (.writeOutput a.payload) s =
        .next ((s.withSnd { s.snd with
          outs := s.snd.outs.set a.line.val
            { mode := a.mode, param := a.param, inverted := a.inverted,
              hostValue := (s.snd.outs.get a.line).hostValue } }).replied 0x18 a.payload .ok [])) ∧
    (s.ChirpOk → s.inService = true →
      exec (.setOutput [byteOf k.val, bit v]) s =
        .next ((s.withSnd { s.snd with
          outs := s.snd.outs.set k.val { s.snd.outs.get k with hostValue := v } }).replied 0x35 [byteOf k.val, bit v] .ok [])) ∧
    (s.inReset = false →
      let o := s.snd.outs.get k
      (s.outEnergized k = true ↔
        ((match o.mode with
          | .off => False
          | .unack => ∃ n ∈ s.presented, o.param ≤ n.level ∧ n.phase ≠ .standing
          | .active => ∃ n ∈ s.presented, o.param ≤ n.level ∧ s.active n.point = true
          | .horn => s.hornPattern ≠ .silent
          | .group => ∃ n ∈ s.nt.notices, (∃ g, s.groupOf n.point = some g ∧ g.val = o.param) ∧ s.active n.point = true
          | .system => ∃ n ∈ s.nt.notices, n.point = hostSilent ∨ n.point = panelOverflow
          | .host => o.hostValue = true) ↔ o.inverted = false)))

/-- KEY_LOCK, SET_MESSAGE and LAMP_TEST (R109, R133, R115). -/
def Obligations.KeyLockMessageAndLampTest : Prop :=
  ∀ (s : State) (m : BitVec 6) (text : Text),
    s.ChirpOk → s.inService = true →
    exec (.keyLock [m.setWidth 8]) s = .next ((s.withKp { s.kp with lock := m }).replied 0x33 [m.setWidth 8] .ok []) ∧
    (s.kp.testRunning = false →
      exec (.lampTest []) s =
        .next ((s.withKp { s.kp with testRunning := true, testLeft := 8 }).replied 0x36 [] .ok [])) ∧
    (s.kp.testRunning = true → exec (.lampTest []) s = .next (s.replied 0x36 [] .ok [])) ∧
    (text.length ≤ 20 → text.all printable = true →
      Reaches (exec (.setMessage text) s) fun t =>
        t = (s.withPres { s.pres with
          message := text, composer := t.pres.composer, dirty := t.pres.dirty }).replied 0x34 text .ok [] ∧
        (s.pres.composer = .idle ∨ s.pres.composer = .ready →
          t.pres.composer = .composing { s.snapshot with message := text } ∧ t.pres.dirty = s.pres.dirty) ∧
        (s.pres.composer ≠ .idle → s.pres.composer ≠ .ready →
          t.pres.composer = s.pres.composer ∧ t.pres.dirty = true))

/-! ## Link-sourced points, notices, the Shelf -/

/-- The checks of RAISE after length and mode, in the order of R7: field, source, group, capacity. -/
def Obligations.RaiseIsCheckedInOrder : Prop :=
  ∀ (s : State) (u : UserPt) (f : NoticeField) (pl : List Byte), s.inModeNow .run →
    (2 ≤ pl.length → pl.length ≤ 8 → parseRaise pl = none → exec (.raise pl) s = .next (s.replied 0x20 pl .badArgument [])) ∧
    (f.ok = true → s.bindingLine u ≠ none →
      exec (.raise (raisePayload u f)) s = .next (s.replied 0x20 (raisePayload u f) .sourceConflict [])) ∧
    (f.ok = true → s.bindingLine u = none → (s.groupRec (s.pointRec u).group).enabled = false →
      exec (.raise (raisePayload u f)) s = .next (s.replied 0x20 (raisePayload u f) .groupDisabled [])) ∧
    (f.ok = true → s.bindingLine u = none → (s.groupRec (s.pointRec u).group).enabled = true →
      s.notice? (UserPt.pt u) = none → 48 ≤ s.userCount →
      exec (.raise (raisePayload u f)) s = .next (s.replied 0x20 (raisePayload u f) .tableFull []))

/-- An accepted RAISE on a point with no live notice creates it (R7, R24, R29, R34, R36, R38); its children are suppressed
(R81), the window is anchored (R144) and a chirp burst may start (R123). What counts as a change of the view is log 12, and
that every change of it requests a composition is R152 as log 13 reads it. -/
def Obligations.RaiseCreatesTheNotice : Prop :=
  ∀ (s : State) (u : UserPt) (f : NoticeField),
    s.ParentsOk → s.inModeNow .run → f.ok = true → s.bindingLine u = none →
    (s.groupRec (s.pointRec u).group).enabled = true → s.notice? (UserPt.pt u) = none → s.userCount < 48 →
    let p := UserPt.pt u
    let g := (s.pointRec u).group
    let ind := (s.pointRec u).cls = .indication
    Reaches (exec (.raise (raisePayload u f)) s) fun t =>
      EventFrame s t ∧ t.link.ran = some { kind := 0x20, request := raisePayload u f, result := .ok, reply := [] } ∧
      t.active p = true ∧ SameConds s t [p] ∧ t.nt.pendSet = s.nt.pendSet ∧ t.nt.rev = s.nt.rev + 1 ∧
      t.link.flags = s.link.flags ||| (if ind then 0 else AttnEvent.newAlert.mask) ∧
      (Holds (t.notice? p) fun m =>
        m.phase = (if ind then .standing else .alert) ∧ m.origin = .link ∧ m.level = (s.groupRec g).level ∧ m.count = 1 ∧
        m.silenced = false ∧ m.realert = none ∧ m.stale = false ∧ m.chattering = false ∧ m.field = f ∧ m.rev = t.nt.rev ∧
        (m.firstOut = true ↔ FirstOutGrant s u)) ∧
      (FirstOutGrant s u → (t.groupRec g).marker = some u) ∧
      (¬FirstOutGrant s u → (t.groupRec g).marker = (s.groupRec g).marker) ∧
      Suppresses t u ∧ ChirpFollows s t (fun q => q = p) ∧ (s.TableOk → WindowFollows s t fun q => q = p) ∧
      TakesNumber s t p

/-- An accepted RAISE on a live notice refreshes it in ALERT or STANDING and raises it again from FLEETING or RETURNED (R25),
with first-out and the marker if the group grants it (R38); the window and the chirp burst follow (R144, R123). What counts as
a change of the view is log 12, and that every change of it requests a composition is R152 as log 13 reads it. -/
def Obligations.RaiseRefreshesOrRaisesAgain : Prop :=
  ∀ (s : State) (u : UserPt) (f : NoticeField) (n : Notice),
    s.inModeNow .run → f.ok = true → s.bindingLine u = none → (s.groupRec (s.pointRec u).group).enabled = true →
    s.notice? (UserPt.pt u) = some n →
    let p := UserPt.pt u
    let g := (s.pointRec u).group
    (n.phase = .alert ∨ n.phase = .standing →
      Reaches (exec (.raise (raisePayload u f)) s) fun t =>
        EventFrame s t ∧ t.link.ran = some { kind := 0x20, request := raisePayload u f, result := .refreshed, reply := [] } ∧
        t.active p = true ∧ SameConds s t [p] ∧ t.nt.pendSet = s.nt.pendSet ∧ t.nt.arrival = s.nt.arrival ∧
        t.link.flags = s.link.flags ∧ SameNotices s t [p] ∧ (∀ h, t.groupRec h = s.groupRec h) ∧
        (s.ServiceOk →
          t.pres.top = s.pres.top ∧ t.pres.anchor = s.pres.anchor ∧ t.pres.scrollTimer = s.pres.scrollTimer) ∧
        ChirpFollows s t (fun _ => False) ∧
        (n.field = f → t.nt = s.nt) ∧
        (n.field ≠ f → t.nt.rev = s.nt.rev + 1 ∧ t.notice? p = some { n with field := f, rev := s.nt.rev + 1 })) ∧
    (n.phase = .fleeting ∨ n.phase = .returned →
      Reaches (exec (.raise (raisePayload u f)) s) fun t =>
        EventFrame s t ∧ t.link.ran = some { kind := 0x20, request := raisePayload u f, result := .ok, reply := [] } ∧
        t.active p = true ∧ SameConds s t [p] ∧ t.nt.pendSet = s.nt.pendSet ∧ t.nt.rev = s.nt.rev + 1 ∧
        t.flagged .newAlert = true ∧
        (Holds (t.notice? p) fun m =>
          m = { n with phase := .alert, count := min 255 (n.count + 1), silenced := false, realert := none, field := f,
                       rev := s.nt.rev + 1, arrival := m.arrival, firstOut := m.firstOut } ∧
          (n.firstOut = true → m.firstOut = true) ∧
          (s.ParentsOk → (m.firstOut = true ↔ n.firstOut = true ∨ FirstOutGrant s u))) ∧
        (s.ParentsOk →
          (FirstOutGrant s u → (t.groupRec g).marker = some u) ∧
          (¬FirstOutGrant s u → (t.groupRec g).marker = (s.groupRec g).marker)) ∧
        Suppresses t u ∧ ChirpFollows s t (fun q => q = p) ∧ (s.TableOk → WindowFollows s t fun q => q = p) ∧
        (s.TableOk → TakesNumber s t p))

/-- CLEAR (R8): refused for a line-bound point; on an ACTIVE point it sets the condition CLEAR and delivers one clear (R26,
R29, R62), and releases its children whether or not an edge is delivered (R81, R83); on a CLEAR point it changes nothing. What
counts as a change of the view is log 12, and that every change of it requests a composition is R152 as log 13 reads it; that a
child which the same event admits is no returning child is log 21. -/
def Obligations.ClearRequestClearsThePoint : Prop :=
  ∀ (s : State) (u : UserPt),
    s.inModeNow .run →
    let p := UserPt.pt u
    (s.bindingLine u ≠ none → exec (.clear [byteOf u.val]) s = .next (s.replied 0x21 [byteOf u.val] .sourceConflict [])) ∧
    (s.bindingLine u = none → s.active p = false → s.ChirpOk →
      exec (.clear [byteOf u.val]) s = .next (s.replied 0x21 [byteOf u.val] .ok [])) ∧
    (s.bindingLine u = none → s.active p = true → s.TableOk → s.ParentsOk →
      Reaches (exec (.clear [byteOf u.val]) s) fun t =>
        EventFrame s t ∧ t.link.ran = some { kind := 0x21, request := [byteOf u.val], result := .ok, reply := [] } ∧
        t.active p = false ∧ SameConds s t [p, panelOverflow] ∧
        ((s.groupRec (s.pointRec u).group).enabled = true → ∀ n, s.notice? p = some n → ClearMoves s t u n) ∧
        ((s.groupRec (s.pointRec u).group).enabled = true → PendingMoves s t u) ∧
        ((s.groupRec (s.pointRec u).group).enabled = false →
          (∀ n, s.notice? p = some n → t.notice? p = some n) ∧ t.nt.pendSet = s.nt.pendSet) ∧
        (s.notice? p = none → t.notice? p = none) ∧
        ReleaseMoves s t u ∧
        (let shown := fun q => s.parentOf q = some u ∨ s.notice? q = none
         WindowFollows s t shown ∧ ChirpFollows s t shown))

/-- ACKNOWLEDGE with scope point (R27, R29, R190): the named notice takes an ack wherever it stands; with no notice, NO_NOTICE. -/
def Obligations.AcknowledgeReachesTheNamedNotice : Prop :=
  ∀ (s : State) (p : Pt),
    s.TableOk → s.inModeNow .run →
    (s.notice? p = none →
      exec (.acknowledge [0x00, byteOf p.val]) s = .next (s.replied 0x22 [0x00, byteOf p.val] .noNotice [])) ∧
    (∀ n, s.notice? p = some n →
      Reaches (exec (.acknowledge [0x00, byteOf p.val]) s) fun t =>
        EventFrame s t ∧
        t.link.ran = some { kind := 0x22, request := [0x00, byteOf p.val], result := .ok, reply := [] } ∧
        AckMoves s t n ∧ SameConds s t [panelOverflow] ∧
        (s.nt.pendSet = [] → SameNotices s t [p] ∧ t.nt.pendSet = [] ∧ t.nt.arrival = s.nt.arrival) ∧
        (∀ m, t.notice? p = some m →
          m.arrival = n.arrival ∧ SameNotices s t [p] ∧ t.nt.pendSet = s.nt.pendSet ∧ t.nt.arrival = s.nt.arrival) ∧
        (n.firstOut = true → n.phase = .alert ∨ n.phase = .fleeting → s.classOf p ≠ .indication →
          ∀ g, s.groupOf p = some g → (t.groupRec g).marker = none))

/-- ACKNOWLEDGE and RESET with scope group or all (R23, R190, R191): every presented notice in the scope takes its ack or reset,
every other live notice stands; point 129 is apart, since an admission of the event can clear it. -/
def Obligations.ScopedAcksAndResetsReachTheView : Prop :=
  ∀ (s : State) (g : Option GroupNo),
    s.TableOk → s.inModeNow .run →
    let pl : List Byte := match g with
      | some x => [0x01, byteOf x.val]
      | none => [0x02, 0x00]
    let seen := fun n : Notice => s.withheld n.point = false ∧ (g = none ∨ s.groupOf n.point = g)
    (Reaches (exec (.acknowledge pl) s) fun t =>
      EventFrame s t ∧ t.link.ran = some { kind := 0x22, request := pl, result := .ok, reply := [] } ∧
      SameConds s t [panelOverflow] ∧
      ∀ n ∈ s.nt.notices, n.point ≠ panelOverflow →
        (seen n → n.phase = .alert ∨ n.phase = .fleeting ∨ (n.phase = .returned ∧ s.seqOf n.point = .ringback) →
          AckMoves s t n) ∧
        (¬(seen n ∧ (n.phase = .alert ∨ n.phase = .fleeting ∨ (n.phase = .returned ∧ s.seqOf n.point = .ringback))) →
          Holds (t.notice? n.point) fun m => m = { n with arrival := m.arrival })) ∧
    (Reaches (exec (.reset pl) s) fun t =>
      EventFrame s t ∧ t.link.ran = some { kind := 0x23, request := pl, result := .ok, reply := [] } ∧
      SameConds s t [panelOverflow] ∧
      ∀ n ∈ s.nt.notices, n.point ≠ panelOverflow →
        (seen n → n.phase = .returned → s.classOf n.point ≠ .indication → s.seqOf n.point ≠ .auto →
          t.notice? n.point = none ∧ t.flagged .retired = true) ∧
        (¬(seen n ∧ n.phase = .returned) → Holds (t.notice? n.point) fun m => m = { n with arrival := m.arrival }))

/-- RESET with scope point (R28): a notice in RETURNED is retired under MANUAL or RINGBACK; in another phase it stands. -/
def Obligations.ResetRetiresAReturnedNotice : Prop :=
  ∀ (s : State) (p : Pt),
    s.TableOk → s.inModeNow .run →
    (s.notice? p = none → exec (.reset [0x00, byteOf p.val]) s = .next (s.replied 0x23 [0x00, byteOf p.val] .noNotice [])) ∧
    (∀ n, s.notice? p = some n →
      Reaches (exec (.reset [0x00, byteOf p.val]) s) fun t =>
        EventFrame s t ∧
        t.link.ran = some { kind := 0x23, request := [0x00, byteOf p.val], result := .ok, reply := [] } ∧
        SameConds s t [panelOverflow] ∧
        (n.phase = .returned → s.classOf p ≠ .indication → s.seqOf p = .manual ∨ s.seqOf p = .ringback →
          t.notice? p = none ∧ t.flagged .retired = true) ∧
        (n.phase ≠ .returned → t.nt = s.nt ∧ t.link.flags = s.link.flags ∧ t.pt = s.pt))

/-- SILENCE (R42, R125): every sounding notice is silenced, with a countdown in ALERT or FLEETING when the setting is not 0; no
other record changes; the horn is SILENT and no burst runs. A realert countdown that expires (R44) clears the silenced flag and
goes, one change to the record, and a burst may start (R123); the mark that it has run out is log 3. -/
def Obligations.SilenceQuietsTheHorn : Prop :=
  ∀ s : State, s.TableOk →
    (∀ (p : Pt) (n : Notice), s.inService = true → s.notice? p = some n → ∀ c, n.realert = some c → c.due = true →
      Reaches (exec (.realertExpiry p) s) fun t =>
        EventFrame s t ∧ t.pt = s.pt ∧ t.link = s.link ∧ t.nt.rev = s.nt.rev + 1 ∧ t.nt.pendSet = s.nt.pendSet ∧
        t.nt.arrival = s.nt.arrival ∧ SameNotices s t [p] ∧
        t.notice? p = some { n with silenced := false, realert := none, rev := s.nt.rev + 1 } ∧
        ChirpFollows s t (fun q => q = p)) ∧
    (s.inModeNow .run → Reaches (exec (.silence []) s) fun t =>
      EventFrame s t ∧ t.link.ran = some { kind := 0x24, request := [], result := .ok, reply := [] } ∧ t.pt = s.pt ∧
      t.link.flags = s.link.flags ∧ t.nt.pendSet = s.nt.pendSet ∧ t.nt.arrival = s.nt.arrival ∧
      t.snd.chirp = none ∧ t.hornPattern = .silent ∧
      t.nt.rev = s.nt.rev + BitVec.ofNat 16 (s.nt.notices.filter s.sounding).length ∧
      (∀ p n, s.notice? p = some n →
        Holds (t.notice? p) fun m =>
          if s.sounding n = true then
            m = { n with
              silenced := true, rev := m.rev,
              realert := if (n.phase = .alert ∨ n.phase = .fleeting) ∧ s.snd.realertMin ≠ 0
                then some { left := s.snd.realertMin * 60, due := false } else n.realert }
          else m = n))

/-- RETIRE (R31) with the admission arbiter (R65, R66): the notice goes, its condition stays; a freed user record admits the
pending point with the highest group level and, among equals, the lowest number. -/
def Obligations.RetireAdmitsTheMostUrgentPending : Prop :=
  ∀ (s : State) (p : Pt),
    s.TableOk → s.inModeNow .run →
    (s.notice? p = none → exec (.retire [byteOf p.val]) s = .next (s.replied 0x25 [byteOf p.val] .noNotice [])) ∧
    (∀ n, s.notice? p = some n →
      Reaches (exec (.retire [byteOf p.val]) s) fun t =>
        EventFrame s t ∧ t.link.ran = some { kind := 0x25, request := [byteOf p.val], result := .ok, reply := [] } ∧
        t.notice? p = none ∧ t.flagged .retired = true ∧ SameConds s t [panelOverflow] ∧
        (n.firstOut = true → ∀ g, s.groupOf p = some g → (t.groupRec g).marker = none) ∧
        (userOf p = none ∨ s.nt.pendSet = [] →
          t.nt.pendSet = s.nt.pendSet ∧ SameNotices s t [p] ∧ t.nt.rev = s.nt.rev + 1 ∧ t.nt.arrival = s.nt.arrival) ∧
        (userOf p ≠ none → ∀ u ∈ s.nt.pendSet,
          (∀ v ∈ s.nt.pendSet, (s.groupRec (s.pointRec v).group).level < (s.groupRec (s.pointRec u).group).level ∨
            ((s.groupRec (s.pointRec v).group).level = (s.groupRec (s.pointRec u).group).level ∧ u ≤ v)) →
          t.nt.pendSet = (s.nt.pendSet.filter fun v => v ≠ u) ∧
          Holds (t.notice? (UserPt.pt u)) fun m =>
            m.phase = (if (s.pointRec u).cls = .indication then .standing
              else if s.active (UserPt.pt u) = true then .alert else .fleeting) ∧
            m.count = 1 ∧ m.firstOut = false ∧ m.field = .none ∧ m.level = (s.groupRec (s.pointRec u).group).level ∧
            m.chattering = s.inChatter (UserPt.pt u)))

/-- R65: the arbiter's choice: a member, the highest group level, then the lowest point number, whenever the set has members. -/
def Obligations.ArbiterChoosesByLevelThenNumber : Prop :=
  ∀ s : State, s.TableOk →
    (s.nt.pendSet = [] → s.arbiterPick = none) ∧
    (s.nt.pendSet ≠ [] →
      Holds s.arbiterPick fun u =>
        u ∈ s.nt.pendSet ∧
        ∀ v ∈ s.nt.pendSet, v ≠ u →
          (s.groupRec (s.pointRec v).group).level < (s.groupRec (s.pointRec u).group).level ∨
          ((s.groupRec (s.pointRec v).group).level = (s.groupRec (s.pointRec u).group).level ∧ u < v))

/-- SHELVE (R72, R73): checked for permission and room; accepted, the point's entry stands at the minutes times 60 seconds, and
no record and no flag changes; the window and the chirp burst follow the view (R144, R124). What counts as a change of the view
is log 12, and that every change of it requests a composition is R152 as log 13 reads it. -/
def Obligations.ShelveSetsTheEntry : Prop :=
  ∀ (s : State) (p : Pt) (minutes : Nat),
    s.inModeNow .run → 1 ≤ minutes → minutes ≤ 240 →
    let pl : List Byte := [byteOf p.val, byteOf minutes]
    (userOf p = none ∨ s.shelveLimitOf p < minutes → exec (.shelve pl) s = .next (s.replied 0x26 pl .notPermitted [])) ∧
    (∀ u, userOf p = some u → minutes ≤ s.shelveLimitOf p → s.shelfEntry? p = none → 16 ≤ s.shelf.length →
      exec (.shelve pl) s = .next (s.replied 0x26 pl .shelfFull [])) ∧
    (∀ u, userOf p = some u → minutes ≤ s.shelveLimitOf p → s.shelfEntry? p ≠ none ∨ s.shelf.length < 16 →
      Reaches (exec (.shelve pl) s) fun t =>
        EventFrame (s.withShelf t.shelf) t ∧ t.link.ran = some { kind := 0x26, request := pl, result := .ok, reply := [] } ∧
        t.shelfEntry? p = some { point := u, time := { left := minutes * 60, due := false } } ∧
        (∀ q, q ≠ p → t.shelfEntry? q = s.shelfEntry? q) ∧
        t.shelf.length = (s.shelf.filter fun e => e.point ≠ u).length + 1 ∧
        t.nt = s.nt ∧ t.pt = s.pt ∧ t.link.flags = s.link.flags ∧
        (s.TableOk → WindowFollows s t fun _ => False) ∧ ChirpFollows s t (fun _ => False))

/-- UNSHELVE and the expiry of an entry (R75, R76, R83): the entry goes, its point's notice returns to view, and the expiry
alone sets SHELF_EXPIRY; the window and the chirp burst follow (R144, R123). Points 128 and 129 have no entry. The mark that
the entry has run out is log 3; what counts as a change of the view is log 12, and that every change of it requests a
composition is R152 as log 13 reads it. -/
def Obligations.ShelvingEndsInAReturn : Prop :=
  ∀ (s : State) (u : UserPt),
    s.TableOk → s.ShelfOk →
    let p := UserPt.pt u
    (s.inModeNow .run → s.shelfEntry? p = none →
      exec (.unshelve [byteOf u.val]) s = .next (s.replied 0x27 [byteOf u.val] .notShelved [])) ∧
    (s.inModeNow .run → ∀ q : Pt, q = hostSilent ∨ q = panelOverflow →
      exec (.unshelve [byteOf q.val]) s = .next (s.replied 0x27 [byteOf q.val] .notShelved [])) ∧
    (s.inModeNow .run → s.shelfEntry? p ≠ none →
      Reaches (exec (.unshelve [byteOf u.val]) s) fun t =>
        EventFrame (s.withShelf (s.shelf.filter fun e => e.point ≠ u)) t ∧
        t.link.ran = some { kind := 0x27, request := [byteOf u.val], result := .ok, reply := [] } ∧
        t.pt = s.pt ∧ SameNotices s t [p] ∧ ReturnMoves s t p ∧
        (t.link.flags = s.link.flags ∨ t.link.flags = s.link.flags ||| AttnEvent.newAlert.mask) ∧
        WindowFollows s t (fun q => q = p) ∧ ChirpFollows s t (fun q => q = p)) ∧
    (∀ e rest, s.shelf = e :: rest → e.point = u → e.time.due = true → s.inService = true →
      Reaches (exec (.shelfEntryExpiry u) s) fun t =>
        EventFrame (s.withShelf rest) t ∧ t.link.ran = s.link.ran ∧ t.pt = s.pt ∧ SameNotices s t [p] ∧ ReturnMoves s t p ∧
        t.flagged .shelfExpiry = true ∧ (s.ctl.mode = .run → WindowFollows s t fun q => q = p) ∧
        ChirpFollows s t (fun q => q = p))

/-! ## START and STOP -/

/-- START (R203, R204): refused with the lowest offending point; accepted, RUN with a start-up raise for every line-bound ACTIVE
point of an enabled group and for no other, and supervision by its setting. -/
def Obligations.StartEntersRun : Prop :=
  ∀ s : State,
    s.TableOk → s.ConfigEmpty → s.inModeNow .config →
    (∀ u, s.offending u = true → (∀ v, s.offending v = true → u ≤ v) →
      exec (.start []) s = .next (s.replied 0x3E [] .invalidConfig [byteOf u.val])) ∧
    ((∀ u, s.offending u = false) →
      Reaches (exec (.start []) s) fun t =>
        EventFrame ((s.withCtl { s.ctl with mode := .run }).withLink { s.link with
          sup := if s.link.supSetting = 0 then .off else .running
          supTimer := if s.link.supSetting = 0 then none else some { left := s.link.supSetting, due := false } }) t ∧
        t.link.ran = some { kind := 0x3E, request := [], result := .ok, reply := [] } ∧
        SameConds s t [panelOverflow] ∧ (∀ g, t.groupRec g = s.groupRec g) ∧
        (∀ u,
          if s.bindingLine u ≠ none ∧ (s.groupRec (s.pointRec u).group).enabled = true ∧ s.active (UserPt.pt u) = true then
            u ∈ t.nt.pendSet ∨
            Holds (t.notice? (UserPt.pt u)) fun m =>
              m.phase = (if (s.pointRec u).cls = .indication then .standing else .alert) ∧ m.count = 1 ∧
              m.firstOut = false ∧ m.field = .none ∧ m.stale = false ∧ m.chattering = s.inChatter (UserPt.pt u) ∧
              m.level = (s.groupRec (s.pointRec u).group).level
          else t.notice? (UserPt.pt u) = none ∧ u ∉ t.nt.pendSet) ∧
        t.pres.composer ≠ .idle ∧ t.pres.composer ≠ .ready ∧
        t.pres.anchor = t.presented[t.pres.top]?.map (·.point))

/-- STOP (R19, R205, R206): what it empties, clears and resets, and what it keeps. -/
def Obligations.StopLeavesRun : Prop :=
  ∀ s : State,
    s.TableOk → s.inModeNow .run →
    Reaches (exec (.stop []) s) fun t =>
      t.pending = s.pending ∧ t.ctl = { s.ctl with mode := .config } ∧
      t.nt = { notices := [], pendSet := [], arrival := 1,
               rev := s.nt.rev + BitVec.ofNat 16 s.nt.notices.length } ∧
      t.shelf = [] ∧ t.pt.points = s.pt.points ∧
      (∀ g, t.groupRec g = { s.groupRec g with marker := none }) ∧
      (∀ u, t.active (UserPt.pt u) = (s.active (UserPt.pt u) && !s.linkSourced u)) ∧
      t.active hostSilent = false ∧ t.active panelOverflow = false ∧
      t.lq = s.lq ∧ t.kp = s.kp ∧ t.snd = { s.snd with chirp := none } ∧ t.hornPattern = .silent ∧
      PresStep s.pres t.pres ∧ t.pres.top = 0 ∧ t.pres.anchor = none ∧ t.pres.scrollTimer = none ∧
      t.pres.composer ≠ .idle ∧ t.pres.composer ≠ .ready ∧
      t.link = { s.link with
        sup := .off, supTimer := none, ran := some { kind := 0x3F, request := [], result := .ok, reply := [] } }

/-! ## Field lines and keys -/

/-- A sample of a line and of a key (R87, R90, R91, R105, R106, R208): what the pin reads as, and the move of the qualification
machine when the reading is new; between the thresholds nothing changes. -/
def Obligations.RawChangesDriveTheQualification : Prop :=
  ∀ (s : State) (l : LineNo) (k : KeyNo) (pin : PinLevel), s.inService = true →
    let r := s.lineRec l
    let raw := match pin with
      | .low => decide (r.polarity = .normal)
      | .high => decide (r.polarity = .inverted)
      | .mid => r.sample
    let line (x : LineRec) : Host.Outcome State Fault Refusal := .next (s.withLq { s.lq with lines := s.lq.lines.set l.val x })
    let q := s.keyRec k
    let pressed := match pin with
      | .low => true
      | .high => false
      | .mid => q.sample
    let key (x : KeyRec) : Host.Outcome State Fault Refusal := .next (s.withKp { s.kp with keys := s.kp.keys.set k.val x })
    (raw = r.sample → exec (.lineRawChange l pin) s = .next s) ∧
    (raw = true → r.sample = false → r.state = .quiet →
      exec (.lineRawChange l pin) s = line { r with sample := true, state := .rising, qualify := r.qualifyOn }) ∧
    (raw = false → r.sample = true → r.state = .rising →
      exec (.lineRawChange l pin) s = line { r with sample := false, state := .quiet, qualify := 0 }) ∧
    (raw = false → r.sample = true → r.state = .active →
      exec (.lineRawChange l pin) s = line { r with sample := false, state := .falling, qualify := r.qualifyOff }) ∧
    (raw = true → r.sample = false → r.state = .falling →
      exec (.lineRawChange l pin) s = line { r with sample := true, state := .active, qualify := 0 }) ∧
    (pressed = q.sample → exec (.keyRawChange k pin) s = .next s) ∧
    (pressed = true → q.sample = false → q.state = .open →
      exec (.keyRawChange k pin) s = key { q with sample := true, state := .making }) ∧
    (pressed = false → q.sample = true → q.state = .making →
      exec (.keyRawChange k pin) s = key { q with sample := false, state := .open }) ∧
    (pressed = false → q.sample = true → q.state = .made →
      exec (.keyRawChange k pin) s = key { q with sample := false, state := .breaking }) ∧
    (pressed = true → q.sample = false → q.state = .breaking →
      exec (.keyRawChange k pin) s = key { q with sample := true, state := .made })

/-- The expiry of a qualify time with hold NONE that enters no chatter hold (R91, R94, R97): the new state, the chatter count, the
bound point's condition, the line raise (R22, R24, R25, R34, R38, R61) or clear (R26, R62) that it delivers in RUN with the group
enabled, the suppression or the release of its children, with or without an edge (R81, R83), and the window and the chirp burst
(R144, R123). That every change of the view requests a composition is R152 as log 13 reads it; what a change is, log 12; that a
child which the same event admits is no returning child, log 21. -/
def Obligations.LineQualifyExpiryMovesThePoint : Prop :=
  ∀ (s : State) (l : LineNo),
    s.TableOk → s.ConfigEmpty → s.ServiceOk → s.ParentsOk → s.inService = true → (s.lineRec l).hold = .none →
    let r := s.lineRec l
    let opened := some { left := s.lq.window, due := false : Countdown }
    let after : LineRec :=
      if r.chatterLimit = 0 then { r with state := .active, qualify := 0 }
      else if r.timer = none then { r with state := .active, qualify := 0, count := 1, timer := opened }
      else { r with state := .active, qualify := 0, count := r.count + 1 }
    (r.state = .rising → (r.chatterLimit = 0 ∨ r.timer = none ∨ r.count + 1 < r.chatterLimit) →
      Reaches (exec (.lineQualifyExpiry l) s) fun t =>
        EventFrame (s.withLq { s.lq with lines := s.lq.lines.set l.val after }) t ∧
        (r.bound = none → t.nt = s.nt ∧ t.pt = s.pt) ∧
        (∀ u, r.bound = some u →
          t.active (UserPt.pt u) = true ∧ SameConds s t [UserPt.pt u, panelOverflow] ∧ Suppresses t u ∧
          (s.delivers (UserPt.pt u) = false → t.nt = s.nt ∧ t.link.flags = s.link.flags) ∧
          (s.delivers (UserPt.pt u) = true → s.active (UserPt.pt u) = false → LineRaises s t l u false) ∧
          (let shown := fun q => s.delivers (UserPt.pt u) = true ∧ s.active (UserPt.pt u) = false ∧
             (q = UserPt.pt u ∨ (q = panelOverflow ∧ s.active panelOverflow = false))
           WindowFollows s t shown ∧ ChirpFollows s t shown))) ∧
    (r.state = .falling →
      Reaches (exec (.lineQualifyExpiry l) s) fun t =>
        EventFrame (s.withLq { s.lq with lines := s.lq.lines.set l.val { r with state := .quiet, qualify := 0 } }) t ∧
        (r.bound = none → t.nt = s.nt ∧ t.pt = s.pt) ∧
        (∀ u, r.bound = some u →
          t.active (UserPt.pt u) = false ∧ SameConds s t [UserPt.pt u, panelOverflow] ∧
          (s.delivers (UserPt.pt u) = true → s.active (UserPt.pt u) = true →
            (∀ n, s.notice? (UserPt.pt u) = some n → ClearMoves s t u n) ∧ PendingMoves s t u) ∧
          (s.active (UserPt.pt u) = false → t.nt = s.nt ∧ t.pt = s.pt ∧ t.link.flags = s.link.flags) ∧
          (s.ctl.mode = .run → s.active (UserPt.pt u) = true →
            let shown := fun q => s.parentOf q = some u ∨ s.notice? q = none
            ReleaseMoves s t u ∧ WindowFollows s t shown ∧ ChirpFollows s t shown)))

/-- Chatter hold (R98, R99): a qualified activation that reaches the limit enters it, with CHATTER set, the flag on the notice,
the point ACTIVE and the raise that this delivers, the window and the chirp burst with it (R144, R123); in hold a qualified
change restarts the release timer and reaches no point. That every change of the view requests a composition is R152 as log 13
reads it; what a change is, log 12. -/
def Obligations.ChatterHoldKeepsTheLineActive : Prop :=
  ∀ (s : State) (l : LineNo),
    s.TableOk → s.ChirpOk → s.inService = true →
    let r := s.lineRec l
    let held := some { left := s.lq.window, due := false : Countdown }
    let entered : LineRec :=
      { r with state := .active, qualify := 0, hold := .chatter, count := r.chatterLimit, timer := held }
    let toActive : LineRec := { r with state := .active, qualify := 0, timer := held }
    let toQuiet : LineRec := { r with state := .quiet, qualify := 0, timer := held }
    (r.state = .rising → r.hold = .none → r.chatterLimit ≠ 0 → r.timer ≠ none → r.chatterLimit ≤ r.count + 1 →
      Reaches (exec (.lineQualifyExpiry l) s) fun t =>
        EventFrame (s.withLq { s.lq with lines := s.lq.lines.set l.val entered }) t ∧
        t.flagged .chatter = true ∧
        (r.bound = none → t.nt = s.nt ∧ t.pt = s.pt) ∧
        (∀ u, r.bound = some u →
          t.active (UserPt.pt u) = true ∧ SameConds s t [UserPt.pt u, panelOverflow] ∧
          (∀ n, s.notice? (UserPt.pt u) = some n → Holds (t.notice? (UserPt.pt u)) fun m => m.chattering = true) ∧
          (s.ConfigEmpty → s.ServiceOk → s.ParentsOk →
            let raises := s.delivers (UserPt.pt u) = true ∧ s.active (UserPt.pt u) = false
            let shown := fun q => raises ∧ (q = UserPt.pt u ∨ (q = panelOverflow ∧ s.active panelOverflow = false))
            (raises → LineRaises s t l u true) ∧ Suppresses t u ∧ WindowFollows s t shown ∧ ChirpFollows s t shown))) ∧
    (r.hold = .chatter → r.state = .rising →
      exec (.lineQualifyExpiry l) s = .next (s.withLq { s.lq with lines := s.lq.lines.set l.val toActive })) ∧
    (r.hold = .chatter → r.state = .falling →
      exec (.lineQualifyExpiry l) s = .next (s.withLq { s.lq with lines := s.lq.lines.set l.val toQuiet }))

/-- The chatter window closes (R97), and a line in hold is released (R100), with the clear of its point where it stands
qualified inactive (R62, R81), the window and the chirp burst with it (R144, R123). The mark that the timer has run out is log 3;
that every change of the view requests a composition is R152 as log 13 reads it; what a change is, log 12. -/
def Obligations.ChatterTimersCloseAndRelease : Prop :=
  ∀ (s : State) (l : LineNo) (c : Countdown),
    s.TableOk → s.ParentsOk → s.inService = true → (s.lineRec l).timer = some c → c.due = true →
    let r := s.lineRec l
    (r.hold = .none →
      exec (.chatterWindowExpiry l) s =
        .next (s.withLq { s.lq with lines := s.lq.lines.set l.val { r with count := 0, timer := none } })) ∧
    (r.hold = .chatter →
      Reaches (exec (.chatterRelease l) s) fun t =>
        EventFrame (s.withLq { s.lq with
          lines := s.lq.lines.set l.val { r with hold := .none, count := 0, timer := none } }) t ∧
        (r.bound = none → t.nt = s.nt ∧ t.pt = s.pt) ∧
        (∀ u, r.bound = some u → r.state = .active ∨ r.state = .falling →
          t.pt = s.pt ∧ ∀ n, s.notice? (UserPt.pt u) = some n →
            Holds (t.notice? (UserPt.pt u)) fun m => m = { n with chattering := false, rev := m.rev }) ∧
        (∀ u, r.bound = some u → r.state = .active ∨ r.state = .falling →
          t.pres.top = s.pres.top ∧ t.pres.anchor = s.pres.anchor ∧ t.pres.scrollTimer = s.pres.scrollTimer ∧
          ChirpFollows s t (fun _ => False)) ∧
        (∀ u, r.bound = some u → r.state = .quiet ∨ r.state = .rising →
          t.active (UserPt.pt u) = false ∧ SameConds s t [UserPt.pt u, panelOverflow] ∧
          (s.delivers (UserPt.pt u) = true → s.active (UserPt.pt u) = true →
            (∀ n, s.notice? (UserPt.pt u) = some n → ClearMoves s t u { n with chattering := false }) ∧
            PendingMoves s t u) ∧
          (s.ctl.mode = .run → s.active (UserPt.pt u) = true →
            let shown := fun q => s.parentOf q = some u ∨ s.notice? q = none
            ReleaseMoves s t u ∧ WindowFollows s t shown ∧ ChirpFollows s t shown)))

/-- The debounce of a key (R106, R108, R109, R115): a release that completes stops the repeat timer; a press that is ignored only
qualifies the key; the TEST key starts the lamp test in either mode. That a bit of 1 in the lock mask locks its key is log 27. -/
def Obligations.KeyDebounceTakesThePress : Prop :=
  ∀ (s : State) (k : KeyNo), s.ChirpOk → s.inService = true →
    let q := s.keyRec k
    let made : KeyRec := { q with state := .made, repeatTimer := if k = 4 ∨ k = 5 then some 600 else q.repeatTimer }
    let pressed := s.withKp { s.kp with keys := s.kp.keys.set k.val made }
    (q.state = .breaking →
      exec (.keyDebounceExpiry k) s =
        .next (s.withKp { s.kp with keys := s.kp.keys.set k.val { q with state := .open, repeatTimer := none } })) ∧
    (q.state = .making →
      s.kp.testRunning = true ∨ s.kp.lock.getLsbD k.val = true ∨ (s.ctl.mode = .config ∧ k ≠ 3) →
      exec (.keyDebounceExpiry k) s = .next pressed) ∧
    (q.state = .making → s.kp.testRunning = false → s.kp.lock.getLsbD k.val = false → k = 3 →
      exec (.keyDebounceExpiry k) s = .next (pressed.withKp { pressed.kp with testRunning := true, testLeft := 8 }))

/-- ACK, RESET and SILENCE presses that act (R110 to R112): OPERATOR is set, and the Notice Table moves as under the request of the
same scope. That a bit of 0 in the lock mask leaves its key unlocked is log 27. -/
def Obligations.NoticeKeysActLikeTheRequests : Prop :=
  ∀ (s : State) (k : KeyNo),
    s.inModeNow .run → (s.keyRec k).state = .making → s.kp.testRunning = false → s.kp.lock.getLsbD k.val = false →
    k = 0 ∨ k = 1 ∨ k = 2 →
    let request := if k = 0 then Instr.acknowledge [0x02, 0x00] else if k = 1 then .silence [] else .reset [0x02, 0x00]
    Reaches (exec (.keyDebounceExpiry k) s) fun t =>
      EventFrame (s.withKp { s.kp with keys := s.kp.keys.set k.val { s.keyRec k with state := .made } }) t ∧
      t.flagged .operator = true ∧ t.link.ran = s.link.ran ∧
      Reaches (exec request s) fun v =>
        t.nt = v.nt ∧ t.pt = v.pt ∧ t.snd = v.snd ∧ t.link.flags = v.link.flags ||| AttnEvent.operator.mask

/-- UP and DOWN, their repeat, and the end of the scroll hold (R108, R114, R143, R145); a repeat press that is ignored still
sets the timer. The mark that the scroll-hold timer has run out is log 3; that a bit of 1 in the lock mask locks its key is
log 27. -/
def Obligations.ScrollKeysMoveTheWindow : Prop :=
  ∀ (s : State) (k : KeyNo), s.ChirpOk → s.inService = true →
    let q := s.keyRec k
    let acts := s.ctl.mode = .run ∧ s.kp.testRunning = false ∧ s.kp.lock.getLsbD k.val = false
    let top := if k = 4 then s.pres.top - 1 else if s.pres.top < s.topLimit then s.pres.top + 1 else s.pres.top
    let keyed (x : KeyRec) := s.withKp { s.kp with keys := s.kp.keys.set k.val x }
    let scrolled (x : KeyRec) (t : State) : Prop :=
      t = (keyed x).withPres { s.pres with
        top := top
        anchor := s.presented[top]?.map (·.point)
        scrollTimer := some { left := s.pres.scrollHold, due := false }
        composer := t.pres.composer
        dirty := t.pres.dirty } ∧
      (top = s.pres.top → t.pres.composer = s.pres.composer ∧ t.pres.dirty = s.pres.dirty) ∧
      (top ≠ s.pres.top → t.pres.composer ≠ .idle ∧ t.pres.composer ≠ .ready)
    (k = 4 ∨ k = 5 → q.state = .making → acts →
      Reaches (exec (.keyDebounceExpiry k) s) (scrolled { q with state := .made, repeatTimer := some 600 })) ∧
    (k = 4 ∨ k = 5 → q.state = .made → q.repeatTimer ≠ none → acts →
      Reaches (exec (.keyRepeatExpiry k) s) (scrolled { q with repeatTimer := some 200 })) ∧
    (q.repeatTimer ≠ none →
      q.state = .breaking ∨ (q.state = .made ∧ (s.kp.testRunning = true ∨ ((k = 4 ∨ k = 5) ∧ ¬acts))) →
      exec (.keyRepeatExpiry k) s = .next (keyed { q with repeatTimer := some 200 })) ∧
    (∀ c, s.ctl.mode = .run → s.pres.scrollTimer = some c → c.due = true →
      Reaches (exec .scrollHoldExpiry s) fun t =>
        t = s.withPres { s.pres with
          top := 0
          anchor := s.presented[0]?.map (·.point)
          scrollTimer := none
          composer := t.pres.composer
          dirty := t.pres.dirty } ∧
        (s.pres.top ≠ 0 → t.pres.composer ≠ .idle ∧ t.pres.composer ≠ .ready))

/-! ## The cadence, the seconds, the text panel -/

/-- A step boundary (R121, R122, R124, R134, R137): the next step begins, the horn takes the pattern in force, the cycle parity
turns at step 0, and a refresh samples the tiles, which its 48 shift clocks send from tile 47 down. That the frame being scanned
takes the new step as well is log 16; that a burst past its three steps waits for CHIRP_BURST_END with the horn off is log 18. -/
def Obligations.StepBoundaryPlaysTheCadence : Prop :=
  ∀ s : State, s.inService = true →
    let step' : Fin 8 := s.pres.step + 1
    let odd := if step' = 0 then !s.snd.oddCycle else s.snd.oddCycle
    let inForce := if s.kp.testRunning then (if s.hornPattern = .continuous then HornPattern.continuous else .pulse)
      else s.hornPattern
    Reaches (exec .stepBoundary s) fun t =>
      t = (s.withSnd { s.snd with oddCycle := odd, horn := t.snd.horn, chirp := t.snd.chirp }).withPres { s.pres with
        step := step', scan := { s.pres.scan with step := step' }, refresh := t.pres.refresh } ∧
      (t.snd.horn = true ↔
        match inForce with
        | .continuous => True
        | .pulse => step'.val ≤ 3
        | .beat => step'.val ≤ 1
        | .ringbackTone => step'.val = 0 ∧ odd = false
        | .chirp => s.snd.chirp = some 0 ∨ s.snd.chirp = some 1 ∨ s.snd.chirp = some 2
        | .silent => False) ∧
      (s.snd.chirp = none → t.snd.chirp = none) ∧
      (∀ j, s.snd.chirp = some j → j < 3 → t.snd.chirp = some (j + 1)) ∧
      (∀ j, s.snd.chirp = some j → 3 ≤ j → t.snd.chirp = some j) ∧
      (Holds t.pres.refresh fun v => ∀ n : TileNo,
        (v.get n = true ↔ s.kp.testRunning = true ∨
          match s.tilePattern n with
          | .fast => step'.val % 2 = 0
          | .slow => step'.val ≤ 3
          | .wink => step'.val ≤ 1
          | .steady => True
          | .off => False)) ∧
      (Holds t.pres.refresh fun v => ∀ (n : TileNo) (clock : Fin 48), n.val + clock.val = 47 →
        t.chainLine .data (.shift clock) = v.get n)

/-- Which notices sound (R119), the derived horn pattern (R121) and the pattern of a tile (R136). -/
def Obligations.PatternsTakeTheMostUrgentCase : Prop :=
  ∀ (s : State) (n : TileNo),
    let sounds := fun level : Nat =>
      ∃ x ∈ s.nt.notices, s.sounding x = true ∧ x.level = level ∧ (x.phase = .alert ∨ x.phase = .fleeting)
    let ringback := ∃ x ∈ s.nt.notices, s.sounding x = true ∧ x.phase = .returned
    let asks := fun q : Pattern => ∃ x ∈ s.presented, s.tileOf x.point = some n ∧
      (match x.phase with
       | .alert => if x.firstOut then Pattern.fast else .slow
       | .fleeting => .slow
       | .returned => .wink
       | .standing => .steady) = q
    (∀ x ∈ s.nt.notices, s.sounding x = true ↔
      x ∈ s.presented ∧ s.classOf x.point ≠ .indication ∧ s.snd.floor ≤ x.level ∧ x.silenced = false ∧
      (x.phase = .alert ∨ x.phase = .fleeting ∨ (x.phase = .returned ∧ s.seqOf x.point = .ringback))) ∧
    (sounds 4 → s.hornPattern = .continuous) ∧
    (¬sounds 4 → sounds 3 → s.hornPattern = .pulse) ∧
    (¬sounds 4 → ¬sounds 3 → sounds 2 → s.hornPattern = .beat) ∧
    (¬sounds 4 → ¬sounds 3 → ¬sounds 2 → ringback → s.hornPattern = .ringbackTone) ∧
    (¬sounds 4 → ¬sounds 3 → ¬sounds 2 → ¬ringback → s.snd.chirp ≠ none → s.hornPattern = .chirp) ∧
    (¬sounds 4 → ¬sounds 3 → ¬sounds 2 → ¬ringback → s.snd.chirp = none → s.hornPattern = .silent) ∧
    (asks .fast → s.tilePattern n = .fast) ∧
    (¬asks .fast → asks .slow → s.tilePattern n = .slow) ∧
    (¬asks .fast → ¬asks .slow → asks .wink → s.tilePattern n = .wink) ∧
    (¬asks .fast → ¬asks .slow → ¬asks .wink → asks .steady → s.tilePattern n = .steady) ∧
    (¬asks .fast → ¬asks .slow → ¬asks .wink → ¬asks .steady → s.tilePattern n = .off)

/-- The seconds tick (R200): every countdown kept in whole seconds moves by one; one at its last second is marked as run out,
its expiry being an event of its own (log 3). The latch pulse of a refresh brings tile n to lamp n (R137), the third chirp step
ends the burst (R124), and the lamp test ends (R115). -/
def Obligations.TimeMovesCountdownsAndEnds : Prop :=
  ∀ s : State, s.inService = true →
    (∀ v, s.pres.refresh = some v →
      exec .refreshLatch s = .next (s.withPres { s.pres with refresh := none, lamps := v })) ∧
    (s.snd.chirp = some 3 → exec .chirpBurstEnd s = .next (s.withSnd { s.snd with chirp := none })) ∧
    (s.kp.testRunning = true →
      exec .lampTestExpiry s = .next (s.withKp { s.kp with testRunning := false, testLeft := 0 })) ∧
    let tick (c : Countdown) : Countdown :=
      if 2 ≤ c.left then { left := c.left - 1, due := c.due } else { left := c.left, due := true }
    Reaches (exec .secondsTick s) fun t =>
      t.pending = s.pending ∧ t.ctl = s.ctl ∧ t.pt = s.pt ∧ t.kp = s.kp ∧ t.snd = s.snd ∧
      t.nt = { s.nt with notices := s.nt.notices.map fun n => { n with realert := n.realert.map tick } } ∧
      t.shelf = (s.shelf.map fun e => { e with time := tick e.time }) ∧
      t.lq.window = s.lq.window ∧ (∀ l, t.lineRec l = { s.lineRec l with timer := (s.lineRec l).timer.map tick }) ∧
      t.link = { s.link with supTimer := s.link.supTimer.map tick } ∧
      t.pres = { s.pres with scrollTimer := s.pres.scrollTimer.map tick }

/-- The composer and the frame buffers (R147 to R154): a completion makes the snapshot's frame READY, or starts again when the
dirty mark is set; a frame boundary swaps a READY frame to the front; what a snapshot takes (R153); what a frame reads in each
mode, cell by cell (R147 to R151), with its marker attributes (R148); and scan-out (R116, R139 to R141). That a completion
with the dirty mark set leaves the back buffer as it was is log 14, that the dots of a glyph come from an uninterpreted
constant log 11, and that the frame in which a lamp test ended stays lit log 17. -/
def Obligations.ComposerShowsWholeFrames : Prop :=
  ∀ (s : State) (c : Snapshot), s.inService = true →
    (s.pres.composer = .composing c → s.pres.dirty = false →
      exec .compositionComplete s = .next (s.withPres { s.pres with composer := .ready, back := c.frame })) ∧
    (s.pres.composer = .composing c → s.pres.dirty = true →
      exec .compositionComplete s = .next (s.withPres { s.pres with composer := .composing s.snapshot, dirty := false })) ∧
    (let scan : Scan :=
       { step := s.pres.step, lineMode := s.pres.lineMode, orient := s.pres.orient, allLit := s.kp.testRunning }
     (s.pres.composer = .ready →
       exec .frameBoundary s =
         .next (s.withPres { s.pres with front := s.pres.back, back := s.pres.front, composer := .idle, scan := scan })) ∧
     (s.pres.composer ≠ .ready → exec .frameBoundary s = .next (s.withPres { s.pres with scan := scan }))) ∧
    SnapshotTakes s s.snapshot ∧
    (let row (r : Fin 4) := c.frame.cells.get r
     let mark (r : Fin 4) := c.frame.marks.get r
     let message := c.presented = 0 ∧ c.message ≠ []
     (c.mode = .config →
       ReadsAt (row 0) 0 20 [0x4F, 0x55, 0x54, 0x20, 0x4F, 0x46, 0x20, 0x53, 0x45, 0x52, 0x56, 0x49, 0x43, 0x45] ∧
       (∀ r, r ≠ 0 → ReadsAt (row r) 0 20 []) ∧ (∀ r, mark r = .steady)) ∧
     (c.mode = .run → c.lineMode = .fourLine →
       (∀ r : Fin 4, r ≠ 3 → NoticeRowReads c.frame r c r.val) ∧
       (message → ReadsAt (row 3) 0 20 c.message) ∧ (¬message → StatusLineReads (row 3) c) ∧ mark 3 = .steady) ∧
     (c.mode = .run → c.lineMode = .twoLine →
       (message → ReadsAt (row 0) 0 20 c.message ∧ mark 0 = .steady) ∧ (¬message → NoticeRowReads c.frame 0 c 0) ∧
       NoticeRowReads c.frame 1 c 1)) ∧
    (∀ (x : Fin 120) (y : Fin 32), s.inReset = false →
      let scan := s.pres.scan
      let rows := match scan.lineMode with
        | .fourLine => 32
        | .twoLine => 16
      (rows ≤ y.val → s.panelDot x y = false) ∧
      (y.val < rows → s.kp.testRunning = true ∨ scan.allLit = true → s.panelDot x y = true) ∧
      (y.val < rows → s.kp.testRunning = false → scan.allLit = false →
        ∀ (r : Fin 4) (k : Fin 20) (i : Fin 6) (j : Fin 8),
          (match scan.orient with
           | .normal => x.val = 6 * k.val + i.val ∧ y.val = 8 * r.val + j.val
           | .rotated => x.val + (6 * k.val + i.val) = 119 ∧ y.val + (8 * r.val + j.val) = rows - 1) →
          let code := (s.pres.front.cells.get r).get k
          (s.panelDot x y = true ↔
            i.val < 5 ∧ j.val < 7 ∧ code ≠ 0x20 ∧ Config.glyph code i.val j.val = true ∧
            (k.val ≠ 0 ∨ litDuring (s.pres.front.marks.get r) scan.step))))

end
end

