-- ==== Sys2Proof/Laws/Bits.lean ====
section
/-! SUPPORT. The bits of the host link (R156): the whole bytes that MOSI carries, most significant bit first, what the bits of given
bytes come to, and the level of MISO. -/

namespace Sys2Proof.Machine

/-! ## MOSI -/

@[simp] theorem length_wholeBytes (mosi : List Bool) : (wholeBytes mosi).length = mosi.length / 8 := by simp [wholeBytes]

theorem wholeBytes_eq_nil (mosi : List Bool) : wholeBytes mosi = [] ↔ mosi.length < 8 := by
  rw [← List.length_eq_zero_iff, length_wholeBytes]
  omega

/-- Eight levels shifted in stand in the byte in their order, the first one highest. -/
theorem shiftIn_eight (b7 b6 b5 b4 b3 b2 b1 b0 : Bool) :
    ∀ j : Fin 8, ([b7, b6, b5, b4, b3, b2, b1, b0])[j] = ([b7, b6, b5, b4, b3, b2, b1, b0].foldl shiftIn 0).getLsbD (7 - j.val) := by
  revert b7 b6 b5 b4 b3 b2 b1 b0
  decide +kernel

/-- A bit of a whole byte is the level of MOSI at its edge. -/
theorem wholeBytes_bit (mosi : List Bool) (i : Fin (wholeBytes mosi).length) (j : Fin 8) :
    mosi[8 * i.val + j.val]? = some (((wholeBytes mosi).get i).getLsbD (7 - j.val)) := by
  have hi : i.val < mosi.length / 8 := lt_of_lt_of_eq i.isLt (length_wholeBytes mosi)
  have hl : ((mosi.drop (8 * i.val)).take 8).length = 8 := by simp; omega
  have hg : (wholeBytes mosi).get i = ((mosi.drop (8 * i.val)).take 8).foldl shiftIn 0 := by
    rw [List.get_eq_getElem]
    simp [wholeBytes]
  have hb : mosi[8 * i.val + j.val]? = ((mosi.drop (8 * i.val)).take 8)[j.val]? := by
    rw [List.getElem?_take_of_lt j.isLt, List.getElem?_drop]
  rw [hg, hb]
  generalize (mosi.drop (8 * i.val)).take 8 = w at hl ⊢
  match w, hl with
  | [b7, b6, b5, b4, b3, b2, b1, b0], _ =>
    rw [← shiftIn_eight b7 b6 b5 b4 b3 b2 b1 b0 j]
    exact List.getElem?_eq_getElem _

/-- The levels by which a host sends bytes, each most significant bit first. -/
def bitsOf (bytes : List Byte) : List Bool :=
  bytes.flatMap fun b =>
    [b.getLsbD 7, b.getLsbD 6, b.getLsbD 5, b.getLsbD 4, b.getLsbD 3, b.getLsbD 2, b.getLsbD 1, b.getLsbD 0]

theorem foldl_shiftIn_bits (b : Byte) :
    [b.getLsbD 7, b.getLsbD 6, b.getLsbD 5, b.getLsbD 4, b.getLsbD 3, b.getLsbD 2, b.getLsbD 1, b.getLsbD 0].foldl shiftIn 0 = b := by
  revert b
  decide +kernel

theorem wholeBytes_eight (w rest : List Bool) (h : w.length = 8) :
    wholeBytes (w ++ rest) = w.foldl shiftIn 0 :: wholeBytes rest := by
  unfold wholeBytes
  rw [List.length_append, h, show (8 + rest.length) / 8 = rest.length / 8 + 1 by omega, List.range_succ_eq_map, List.map_cons,
    List.map_map]
  congr 1
  · rw [Nat.mul_zero, List.drop_zero, List.take_append_of_le_length (by omega), List.take_of_length_le (by omega)]
  · refine List.map_congr_left fun i _ => ?_
    show ((((w ++ rest).drop (8 * (i + 1))).take 8).foldl shiftIn 0) = _
    rw [show 8 * (i + 1) = w.length + 8 * i by omega, List.drop_append, List.drop_eq_nil_of_le (by omega), List.nil_append,
      Nat.add_sub_cancel_left]

/-- The bytes that a host sends arrive, and bits after them that are no whole byte are discarded. -/
theorem wholeBytes_bitsOf (bytes : List Byte) (rest : List Bool) (h : rest.length < 8) :
    wholeBytes (bitsOf bytes ++ rest) = bytes := by
  induction bytes with
  | nil => exact (wholeBytes_eq_nil rest).2 h
  | cons b bytes ih =>
    rw [bitsOf, List.flatMap_cons, List.append_assoc, wholeBytes_eight _ _ rfl, foldl_shiftIn_bits]
    exact congrArg (b :: ·) ih

/-! ## MISO -/

theorem misoPin_inReset {s : State} (h : s.inReset = true) (falls : Nat) : s.misoPin falls = none := by
  simp [State.misoPin, h]

theorem misoPin_csnHigh {s : State} (h : s.link.csnLow = false) (falls : Nat) : s.misoPin falls = none := by
  simp [State.misoPin, h]

/-- R202: a muted transaction finds MISO at high impedance to its CSN rise, reset exit or not. -/
theorem misoPin_muted {s : State} (h : s.link.muted = true) (ht : s.link.trans = none) (falls : Nat) :
    s.misoPin falls = none := by
  simp [State.misoPin, h, ht]

theorem misoPin_taken {s : State} {t : Transaction} (h : s.inReset = false) (hc : s.link.csnLow = true)
    (ht : s.link.trans = some t) (falls : Nat) :
    s.misoPin falls = some ((t.miso (falls / 8)).getLsbD (7 - falls % 8)) := by
  simp [State.misoPin, Transaction.misoBit, h, hc, ht]

end Sys2Proof.Machine
end

