-- ==== Sys2Proof/Laws/State.lean ====
section
/-! SUPPORT. One lemma for each field after each block update, so that no proof unfolds a record update, and what the reset of
the part keeps. -/

namespace Sys2Proof.Machine

/-! ## Pending -/

@[simp] theorem State.withPending_pending (s : State) (b : List Instr) : (s.withPending b).pending = b := rfl
@[simp] theorem State.withPending_ctl (s : State) (b : List Instr) : (s.withPending b).ctl = s.ctl := rfl
@[simp] theorem State.withPending_pt (s : State) (b : List Instr) : (s.withPending b).pt = s.pt := rfl
@[simp] theorem State.withPending_nt (s : State) (b : List Instr) : (s.withPending b).nt = s.nt := rfl
@[simp] theorem State.withPending_shelf (s : State) (b : List Instr) : (s.withPending b).shelf = s.shelf := rfl
@[simp] theorem State.withPending_lq (s : State) (b : List Instr) : (s.withPending b).lq = s.lq := rfl
@[simp] theorem State.withPending_kp (s : State) (b : List Instr) : (s.withPending b).kp = s.kp := rfl
@[simp] theorem State.withPending_snd (s : State) (b : List Instr) : (s.withPending b).snd = s.snd := rfl
@[simp] theorem State.withPending_pres (s : State) (b : List Instr) : (s.withPending b).pres = s.pres := rfl
@[simp] theorem State.withPending_link (s : State) (b : List Instr) : (s.withPending b).link = s.link := rfl
@[simp] theorem State.withPending_withPending (s : State) (b c : List Instr) : (s.withPending b).withPending c = s.withPending c := rfl
@[simp] theorem State.withPending_self (s : State) : s.withPending s.pending = s := rfl
@[simp] theorem State.withPending_inReset (s : State) (b : List Instr) : (s.withPending b).inReset = s.inReset := rfl
@[simp] theorem State.withPending_inService (s : State) (b : List Instr) : (s.withPending b).inService = s.inService := rfl

/-! ## Ctl -/

@[simp] theorem State.withCtl_pending (s : State) (b : Control) : (s.withCtl b).pending = s.pending := rfl
@[simp] theorem State.withCtl_ctl (s : State) (b : Control) : (s.withCtl b).ctl = b := rfl
@[simp] theorem State.withCtl_pt (s : State) (b : Control) : (s.withCtl b).pt = s.pt := rfl
@[simp] theorem State.withCtl_nt (s : State) (b : Control) : (s.withCtl b).nt = s.nt := rfl
@[simp] theorem State.withCtl_shelf (s : State) (b : Control) : (s.withCtl b).shelf = s.shelf := rfl
@[simp] theorem State.withCtl_lq (s : State) (b : Control) : (s.withCtl b).lq = s.lq := rfl
@[simp] theorem State.withCtl_kp (s : State) (b : Control) : (s.withCtl b).kp = s.kp := rfl
@[simp] theorem State.withCtl_snd (s : State) (b : Control) : (s.withCtl b).snd = s.snd := rfl
@[simp] theorem State.withCtl_pres (s : State) (b : Control) : (s.withCtl b).pres = s.pres := rfl
@[simp] theorem State.withCtl_link (s : State) (b : Control) : (s.withCtl b).link = s.link := rfl
@[simp] theorem State.withCtl_withCtl (s : State) (b c : Control) : (s.withCtl b).withCtl c = s.withCtl c := rfl
@[simp] theorem State.withCtl_self (s : State) : s.withCtl s.ctl = s := rfl

/-! ## Pt -/

@[simp] theorem State.withPt_pending (s : State) (b : PointTable) : (s.withPt b).pending = s.pending := rfl
@[simp] theorem State.withPt_ctl (s : State) (b : PointTable) : (s.withPt b).ctl = s.ctl := rfl
@[simp] theorem State.withPt_pt (s : State) (b : PointTable) : (s.withPt b).pt = b := rfl
@[simp] theorem State.withPt_nt (s : State) (b : PointTable) : (s.withPt b).nt = s.nt := rfl
@[simp] theorem State.withPt_shelf (s : State) (b : PointTable) : (s.withPt b).shelf = s.shelf := rfl
@[simp] theorem State.withPt_lq (s : State) (b : PointTable) : (s.withPt b).lq = s.lq := rfl
@[simp] theorem State.withPt_kp (s : State) (b : PointTable) : (s.withPt b).kp = s.kp := rfl
@[simp] theorem State.withPt_snd (s : State) (b : PointTable) : (s.withPt b).snd = s.snd := rfl
@[simp] theorem State.withPt_pres (s : State) (b : PointTable) : (s.withPt b).pres = s.pres := rfl
@[simp] theorem State.withPt_link (s : State) (b : PointTable) : (s.withPt b).link = s.link := rfl
@[simp] theorem State.withPt_withPt (s : State) (b c : PointTable) : (s.withPt b).withPt c = s.withPt c := rfl
@[simp] theorem State.withPt_self (s : State) : s.withPt s.pt = s := rfl
@[simp] theorem State.withPt_inReset (s : State) (b : PointTable) : (s.withPt b).inReset = s.inReset := rfl
@[simp] theorem State.withPt_inService (s : State) (b : PointTable) : (s.withPt b).inService = s.inService := rfl

/-! ## Nt -/

@[simp] theorem State.withNt_pending (s : State) (b : NoticeTable) : (s.withNt b).pending = s.pending := rfl
@[simp] theorem State.withNt_ctl (s : State) (b : NoticeTable) : (s.withNt b).ctl = s.ctl := rfl
@[simp] theorem State.withNt_pt (s : State) (b : NoticeTable) : (s.withNt b).pt = s.pt := rfl
@[simp] theorem State.withNt_nt (s : State) (b : NoticeTable) : (s.withNt b).nt = b := rfl
@[simp] theorem State.withNt_shelf (s : State) (b : NoticeTable) : (s.withNt b).shelf = s.shelf := rfl
@[simp] theorem State.withNt_lq (s : State) (b : NoticeTable) : (s.withNt b).lq = s.lq := rfl
@[simp] theorem State.withNt_kp (s : State) (b : NoticeTable) : (s.withNt b).kp = s.kp := rfl
@[simp] theorem State.withNt_snd (s : State) (b : NoticeTable) : (s.withNt b).snd = s.snd := rfl
@[simp] theorem State.withNt_pres (s : State) (b : NoticeTable) : (s.withNt b).pres = s.pres := rfl
@[simp] theorem State.withNt_link (s : State) (b : NoticeTable) : (s.withNt b).link = s.link := rfl
@[simp] theorem State.withNt_withNt (s : State) (b c : NoticeTable) : (s.withNt b).withNt c = s.withNt c := rfl
@[simp] theorem State.withNt_self (s : State) : s.withNt s.nt = s := rfl
@[simp] theorem State.withNt_inReset (s : State) (b : NoticeTable) : (s.withNt b).inReset = s.inReset := rfl
@[simp] theorem State.withNt_inService (s : State) (b : NoticeTable) : (s.withNt b).inService = s.inService := rfl

/-! ## Shelf -/

@[simp] theorem State.withShelf_pending (s : State) (b : List ShelfEntry) : (s.withShelf b).pending = s.pending := rfl
@[simp] theorem State.withShelf_ctl (s : State) (b : List ShelfEntry) : (s.withShelf b).ctl = s.ctl := rfl
@[simp] theorem State.withShelf_pt (s : State) (b : List ShelfEntry) : (s.withShelf b).pt = s.pt := rfl
@[simp] theorem State.withShelf_nt (s : State) (b : List ShelfEntry) : (s.withShelf b).nt = s.nt := rfl
@[simp] theorem State.withShelf_shelf (s : State) (b : List ShelfEntry) : (s.withShelf b).shelf = b := rfl
@[simp] theorem State.withShelf_lq (s : State) (b : List ShelfEntry) : (s.withShelf b).lq = s.lq := rfl
@[simp] theorem State.withShelf_kp (s : State) (b : List ShelfEntry) : (s.withShelf b).kp = s.kp := rfl
@[simp] theorem State.withShelf_snd (s : State) (b : List ShelfEntry) : (s.withShelf b).snd = s.snd := rfl
@[simp] theorem State.withShelf_pres (s : State) (b : List ShelfEntry) : (s.withShelf b).pres = s.pres := rfl
@[simp] theorem State.withShelf_link (s : State) (b : List ShelfEntry) : (s.withShelf b).link = s.link := rfl
@[simp] theorem State.withShelf_withShelf (s : State) (b c : List ShelfEntry) : (s.withShelf b).withShelf c = s.withShelf c := rfl
@[simp] theorem State.withShelf_self (s : State) : s.withShelf s.shelf = s := rfl
@[simp] theorem State.withShelf_inReset (s : State) (b : List ShelfEntry) : (s.withShelf b).inReset = s.inReset := rfl
@[simp] theorem State.withShelf_inService (s : State) (b : List ShelfEntry) : (s.withShelf b).inService = s.inService := rfl

/-! ## Lq -/

@[simp] theorem State.withLq_pending (s : State) (b : LineQualifier) : (s.withLq b).pending = s.pending := rfl
@[simp] theorem State.withLq_ctl (s : State) (b : LineQualifier) : (s.withLq b).ctl = s.ctl := rfl
@[simp] theorem State.withLq_pt (s : State) (b : LineQualifier) : (s.withLq b).pt = s.pt := rfl
@[simp] theorem State.withLq_nt (s : State) (b : LineQualifier) : (s.withLq b).nt = s.nt := rfl
@[simp] theorem State.withLq_shelf (s : State) (b : LineQualifier) : (s.withLq b).shelf = s.shelf := rfl
@[simp] theorem State.withLq_lq (s : State) (b : LineQualifier) : (s.withLq b).lq = b := rfl
@[simp] theorem State.withLq_kp (s : State) (b : LineQualifier) : (s.withLq b).kp = s.kp := rfl
@[simp] theorem State.withLq_snd (s : State) (b : LineQualifier) : (s.withLq b).snd = s.snd := rfl
@[simp] theorem State.withLq_pres (s : State) (b : LineQualifier) : (s.withLq b).pres = s.pres := rfl
@[simp] theorem State.withLq_link (s : State) (b : LineQualifier) : (s.withLq b).link = s.link := rfl
@[simp] theorem State.withLq_withLq (s : State) (b c : LineQualifier) : (s.withLq b).withLq c = s.withLq c := rfl
@[simp] theorem State.withLq_self (s : State) : s.withLq s.lq = s := rfl
@[simp] theorem State.withLq_inReset (s : State) (b : LineQualifier) : (s.withLq b).inReset = s.inReset := rfl
@[simp] theorem State.withLq_inService (s : State) (b : LineQualifier) : (s.withLq b).inService = s.inService := rfl

/-! ## Kp -/

@[simp] theorem State.withKp_pending (s : State) (b : Keypad) : (s.withKp b).pending = s.pending := rfl
@[simp] theorem State.withKp_ctl (s : State) (b : Keypad) : (s.withKp b).ctl = s.ctl := rfl
@[simp] theorem State.withKp_pt (s : State) (b : Keypad) : (s.withKp b).pt = s.pt := rfl
@[simp] theorem State.withKp_nt (s : State) (b : Keypad) : (s.withKp b).nt = s.nt := rfl
@[simp] theorem State.withKp_shelf (s : State) (b : Keypad) : (s.withKp b).shelf = s.shelf := rfl
@[simp] theorem State.withKp_lq (s : State) (b : Keypad) : (s.withKp b).lq = s.lq := rfl
@[simp] theorem State.withKp_kp (s : State) (b : Keypad) : (s.withKp b).kp = b := rfl
@[simp] theorem State.withKp_snd (s : State) (b : Keypad) : (s.withKp b).snd = s.snd := rfl
@[simp] theorem State.withKp_pres (s : State) (b : Keypad) : (s.withKp b).pres = s.pres := rfl
@[simp] theorem State.withKp_link (s : State) (b : Keypad) : (s.withKp b).link = s.link := rfl
@[simp] theorem State.withKp_withKp (s : State) (b c : Keypad) : (s.withKp b).withKp c = s.withKp c := rfl
@[simp] theorem State.withKp_self (s : State) : s.withKp s.kp = s := rfl
@[simp] theorem State.withKp_inReset (s : State) (b : Keypad) : (s.withKp b).inReset = s.inReset := rfl
@[simp] theorem State.withKp_inService (s : State) (b : Keypad) : (s.withKp b).inService = s.inService := rfl

/-! ## Snd -/

@[simp] theorem State.withSnd_pending (s : State) (b : Sounder) : (s.withSnd b).pending = s.pending := rfl
@[simp] theorem State.withSnd_ctl (s : State) (b : Sounder) : (s.withSnd b).ctl = s.ctl := rfl
@[simp] theorem State.withSnd_pt (s : State) (b : Sounder) : (s.withSnd b).pt = s.pt := rfl
@[simp] theorem State.withSnd_nt (s : State) (b : Sounder) : (s.withSnd b).nt = s.nt := rfl
@[simp] theorem State.withSnd_shelf (s : State) (b : Sounder) : (s.withSnd b).shelf = s.shelf := rfl
@[simp] theorem State.withSnd_lq (s : State) (b : Sounder) : (s.withSnd b).lq = s.lq := rfl
@[simp] theorem State.withSnd_kp (s : State) (b : Sounder) : (s.withSnd b).kp = s.kp := rfl
@[simp] theorem State.withSnd_snd (s : State) (b : Sounder) : (s.withSnd b).snd = b := rfl
@[simp] theorem State.withSnd_pres (s : State) (b : Sounder) : (s.withSnd b).pres = s.pres := rfl
@[simp] theorem State.withSnd_link (s : State) (b : Sounder) : (s.withSnd b).link = s.link := rfl
@[simp] theorem State.withSnd_withSnd (s : State) (b c : Sounder) : (s.withSnd b).withSnd c = s.withSnd c := rfl
@[simp] theorem State.withSnd_self (s : State) : s.withSnd s.snd = s := rfl
@[simp] theorem State.withSnd_inReset (s : State) (b : Sounder) : (s.withSnd b).inReset = s.inReset := rfl
@[simp] theorem State.withSnd_inService (s : State) (b : Sounder) : (s.withSnd b).inService = s.inService := rfl

/-! ## Pres -/

@[simp] theorem State.withPres_pending (s : State) (b : Presentation) : (s.withPres b).pending = s.pending := rfl
@[simp] theorem State.withPres_ctl (s : State) (b : Presentation) : (s.withPres b).ctl = s.ctl := rfl
@[simp] theorem State.withPres_pt (s : State) (b : Presentation) : (s.withPres b).pt = s.pt := rfl
@[simp] theorem State.withPres_nt (s : State) (b : Presentation) : (s.withPres b).nt = s.nt := rfl
@[simp] theorem State.withPres_shelf (s : State) (b : Presentation) : (s.withPres b).shelf = s.shelf := rfl
@[simp] theorem State.withPres_lq (s : State) (b : Presentation) : (s.withPres b).lq = s.lq := rfl
@[simp] theorem State.withPres_kp (s : State) (b : Presentation) : (s.withPres b).kp = s.kp := rfl
@[simp] theorem State.withPres_snd (s : State) (b : Presentation) : (s.withPres b).snd = s.snd := rfl
@[simp] theorem State.withPres_pres (s : State) (b : Presentation) : (s.withPres b).pres = b := rfl
@[simp] theorem State.withPres_link (s : State) (b : Presentation) : (s.withPres b).link = s.link := rfl
@[simp] theorem State.withPres_withPres (s : State) (b c : Presentation) : (s.withPres b).withPres c = s.withPres c := rfl
@[simp] theorem State.withPres_self (s : State) : s.withPres s.pres = s := rfl
@[simp] theorem State.withPres_inReset (s : State) (b : Presentation) : (s.withPres b).inReset = s.inReset := rfl
@[simp] theorem State.withPres_inService (s : State) (b : Presentation) : (s.withPres b).inService = s.inService := rfl

/-! ## Link -/

@[simp] theorem State.withLink_pending (s : State) (b : Link) : (s.withLink b).pending = s.pending := rfl
@[simp] theorem State.withLink_ctl (s : State) (b : Link) : (s.withLink b).ctl = s.ctl := rfl
@[simp] theorem State.withLink_pt (s : State) (b : Link) : (s.withLink b).pt = s.pt := rfl
@[simp] theorem State.withLink_nt (s : State) (b : Link) : (s.withLink b).nt = s.nt := rfl
@[simp] theorem State.withLink_shelf (s : State) (b : Link) : (s.withLink b).shelf = s.shelf := rfl
@[simp] theorem State.withLink_lq (s : State) (b : Link) : (s.withLink b).lq = s.lq := rfl
@[simp] theorem State.withLink_kp (s : State) (b : Link) : (s.withLink b).kp = s.kp := rfl
@[simp] theorem State.withLink_snd (s : State) (b : Link) : (s.withLink b).snd = s.snd := rfl
@[simp] theorem State.withLink_pres (s : State) (b : Link) : (s.withLink b).pres = s.pres := rfl
@[simp] theorem State.withLink_link (s : State) (b : Link) : (s.withLink b).link = b := rfl
@[simp] theorem State.withLink_withLink (s : State) (b c : Link) : (s.withLink b).withLink c = s.withLink c := rfl
@[simp] theorem State.withLink_self (s : State) : s.withLink s.link = s := rfl
@[simp] theorem State.withLink_inReset (s : State) (b : Link) : (s.withLink b).inReset = s.inReset := rfl
@[simp] theorem State.withLink_inService (s : State) (b : Link) : (s.withLink b).inService = s.inService := rfl

/-! ## Reset of every item -/

@[simp] theorem State.cleared_pending (s : State) : s.cleared.pending = s.pending := rfl
@[simp] theorem State.cleared_ctl (s : State) : s.cleared.ctl = { s.ctl with mode := .config } := rfl
@[simp] theorem State.cleared_pt (s : State) : s.cleared.pt = .reset := rfl
@[simp] theorem State.cleared_nt (s : State) : s.cleared.nt = .reset := rfl
@[simp] theorem State.cleared_shelf (s : State) : s.cleared.shelf = [] := rfl
@[simp] theorem State.cleared_lq (s : State) : s.cleared.lq = .reset := rfl
@[simp] theorem State.cleared_kp (s : State) : s.cleared.kp = .reset := rfl
@[simp] theorem State.cleared_snd (s : State) : s.cleared.snd = .reset := rfl
@[simp] theorem State.cleared_pres (s : State) : s.cleared.pres = .reset s.pres.lamps := rfl
@[simp] theorem State.cleared_link (s : State) : s.cleared.link = .reset s.link.csnLow s.link.muted := rfl

/-! ## Inside an event -/

@[simp] theorem State.work_st (s : State) : s.work.st = s := rfl
@[simp] theorem State.work_alerts (s : State) : s.work.alerts = [] := rfl
@[simp] theorem State.work_chirps (s : State) : s.work.chirps = [] := rfl
@[simp] theorem State.work_notify (s : State) : s.work.notify = false := rfl
@[simp] theorem State.work_compose (s : State) : s.work.compose = false := rfl
@[simp] theorem Work.onState_st (w : Work) (f : State → State) : (w.onState f).st = f w.st := rfl
@[simp] theorem Work.onState_alerts (w : Work) (f : State → State) : (w.onState f).alerts = w.alerts := rfl
@[simp] theorem Work.onState_chirps (w : Work) (f : State → State) : (w.onState f).chirps = w.chirps := rfl
@[simp] theorem Work.onState_notify (w : Work) (f : State → State) : (w.onState f).notify = w.notify := rfl
@[simp] theorem Work.onState_compose (w : Work) (f : State → State) : (w.onState f).compose = w.compose := rfl
@[simp] theorem Work.onNt_st (w : Work) (f : NoticeTable → NoticeTable) : (w.onNt f).st = w.st.withNt (f w.st.nt) := rfl
@[simp] theorem Work.onNt_alerts (w : Work) (f : NoticeTable → NoticeTable) : (w.onNt f).alerts = w.alerts := rfl
@[simp] theorem Work.onNt_chirps (w : Work) (f : NoticeTable → NoticeTable) : (w.onNt f).chirps = w.chirps := rfl
@[simp] theorem Work.onNt_notify (w : Work) (f : NoticeTable → NoticeTable) : (w.onNt f).notify = w.notify := rfl
@[simp] theorem Work.onNt_compose (w : Work) (f : NoticeTable → NoticeTable) : (w.onNt f).compose = w.compose := rfl

end Sys2Proof.Machine
end

