-- ==== Sys2Proof/Laws/Vectors.lean ====
section
/-! SUPPORT. Reading a vector after a write or a map, in terms of the numbers the records are named by. -/

namespace Sys2Proof.Machine

theorem get_set_same {α : Type} {n : Nat} (v : Vector α n) (i : Fin n) (a : α) : (v.set i.val a).get i = a := by
  simp [Vector.get_eq_getElem]

theorem get_set_other {α : Type} {n : Nat} (v : Vector α n) (i j : Fin n) (a : α) (h : j ≠ i) :
    (v.set i.val a).get j = v.get j := by
  have : i.val ≠ j.val := fun e => h (Fin.ext e.symm)
  simp [Vector.get_eq_getElem, Vector.getElem_set_ne, this]

theorem get_set_eq {α : Type} {n : Nat} (v : Vector α n) (i j : Fin n) (a : α) :
    (v.set i.val a).get j = if j = i then a else v.get j := by
  split
  · next h => rw [h, get_set_same]
  · next h => exact get_set_other v i j a h

@[simp] theorem get_vmap {α β : Type} {n : Nat} (f : Fin n → α → β) (v : Vector α n) (i : Fin n) :
    (vmap f v).get i = f i (v.get i) := by
  simp [vmap, Vector.get_eq_getElem]

@[simp] theorem get_replicate {α : Type} {n : Nat} (a : α) (i : Fin n) : (Vector.replicate n a).get i = a := by
  simp [Vector.get_eq_getElem]

end Sys2Proof.Machine
end

