-- ==== Sys2Proof/Laws/Table.lean ====
section
/-! SUPPORT. What the operations of the Notice Table can reach, said once: `TableStep a b` (Safety) lists what they leave as
it was, and one lemma for each operation gives it. -/

namespace Sys2Proof.Machine

theorem TableStep.refl (a : State) : TableStep a a := ⟨rfl, rfl, rfl, fun _ => rfl, fun _ _ => rfl, rfl, rfl, rfl, rfl, rfl, rfl⟩

theorem TableStep.trans {a b c : State} (h : TableStep a b) (k : TableStep b c) : TableStep a c where
  pending := k.pending.trans h.pending
  ctl := k.ctl.trans h.ctl
  points := k.points.trans h.points
  group g := by rw [k.group g, h.group g]
  cond p hp := (k.cond p hp).trans (h.cond p hp)
  shelf := k.shelf.trans h.shelf
  lq := k.lq.trans h.lq
  kp := k.kp.trans h.kp
  snd := k.snd.trans h.snd
  pres := k.pres.trans h.pres
  link := by rw [k.link, h.link]

/-! ## The bricks -/

theorem tableStep_onNt (w : Work) (f : NoticeTable → NoticeTable) : TableStep w.st (w.onNt f).st :=
  ⟨rfl, rfl, rfl, fun _ => rfl, fun _ _ => rfl, rfl, rfl, rfl, rfl, rfl, rfl⟩

theorem tableStep_flag (w : Work) (e : AttnEvent) : TableStep w.st (w.flag e).st :=
  ⟨rfl, rfl, rfl, fun _ => rfl, fun _ _ => rfl, rfl, rfl, rfl, rfl, rfl, rfl⟩

theorem tableStep_setMarker (w : Work) (g : GroupNo) (m : Option UserPt) : TableStep w.st (w.setMarker g m).st where
  pending := rfl
  ctl := rfl
  points := rfl
  group h := by
    show (w.st.pt.groups.set g.val _).get h = _
    by_cases e : h = g
    · subst e; simp [Work.setMarker, Work.onState, State.groupRec, State.withPt, get_set_same]
    · simp [Work.setMarker, Work.onState, State.groupRec, State.withPt, get_set_other _ _ _ _ e]
  cond _ _ := rfl
  shelf := rfl
  lq := rfl
  kp := rfl
  snd := rfl
  pres := rfl
  link := rfl

theorem tableStep_putCond (w : Work) (v : Bool) : TableStep w.st (w.putCond panelOverflow v).st :=
  ⟨rfl, rfl, rfl, fun _ => rfl, fun _ hp => get_set_other _ _ _ _ hp, rfl, rfl, rfl, rfl, rfl, rfl⟩

theorem tableStep_change (w : Work) (p : Pt) (f : Notice → Notice) : TableStep w.st (w.change p f).st := tableStep_onNt w _

theorem tableStep_alertShown (w : Work) (p : Pt) : TableStep w.st (w.alertShown p).st := tableStep_flag w .newAlert

theorem tableStep_dropMarker (w : Work) (n : Notice) : TableStep w.st (w.dropMarker n).st := by
  unfold Work.dropMarker; split
  · exact tableStep_setMarker _ _ _
  · exact .refl _

theorem tableStep_grantMarker (w : Work) (b : Bool) (p : Pt) : TableStep w.st (w.grantMarker b p).st := by
  unfold Work.grantMarker; split
  · exact tableStep_setMarker _ _ _
  · exact .refl _

/-! ## Raises -/

theorem tableStep_create (w : Work) (kind : RaiseKind) (p : Pt) (phase : Phase) (field : NoticeField) :
    TableStep w.st (w.create kind p phase field).st := by
  unfold Work.create
  dsimp only
  split
  · exact ((tableStep_onNt w _).trans (tableStep_grantMarker _ _ _)).trans (tableStep_alertShown _ _)
  · exact (tableStep_onNt w _).trans (tableStep_grantMarker _ _ _)

theorem tableStep_reRaise (w : Work) (kind : RaiseKind) (n : Notice) (field : NoticeField) :
    TableStep w.st (w.reRaise kind n field).st :=
  ((tableStep_onNt w _).trans (tableStep_grantMarker _ _ _)).trans (tableStep_alertShown _ _)

theorem tableStep_refresh (w : Work) (kind : RaiseKind) (n : Notice) (field : NoticeField) :
    TableStep w.st (w.refresh kind n field).st := by
  unfold Work.refresh; split
  · exact tableStep_change _ _ _
  · exact .refl _

theorem tableStep_raiseNotice (w : Work) (kind : RaiseKind) (p : Pt) (field : NoticeField) :
    TableStep w.st (w.raiseNotice kind p field).st := by
  unfold Work.raiseNotice
  split
  · exact tableStep_create _ _ _ _ _
  · split
    · exact tableStep_refresh _ _ _ _
    · exact tableStep_refresh _ _ _ _
    · exact tableStep_reRaise _ _ _ _
    · exact tableStep_reRaise _ _ _ _

/-! ## Retirement, system points, the Pending Set -/

theorem tableStep_remove (w : Work) (n : Notice) (b : Bool) : TableStep w.st (w.remove n b).st := by
  unfold Work.remove
  have h := (tableStep_dropMarker w n).trans (tableStep_onNt (w.dropMarker n) fun t =>
    { t with notices := t.notices.filter fun m => m.point ≠ n.point, rev := t.rev + 1 })
  dsimp only
  split
  · exact h.trans (tableStep_flag _ _)
  · exact h

theorem tableStep_clearSystem (w : Work) (p : Pt) : TableStep w.st (w.clearSystem p).st := by
  unfold Work.clearSystem
  split
  · exact .refl _
  · split
    · exact tableStep_change _ _ _
    · exact tableStep_remove _ _ _
    · exact .refl _
    · exact .refl _

theorem tableStep_setOverflow (w : Work) (v : Bool) : TableStep w.st (w.setSystem panelOverflow v).st := by
  unfold Work.setSystem
  split
  · exact .refl _
  · dsimp only
    split
    · split
      · exact (tableStep_putCond w v).trans (tableStep_raiseNotice _ _ _ _)
      · exact (tableStep_putCond w v).trans (tableStep_clearSystem _ _)
    · exact tableStep_putCond w v

theorem tableStep_pend (w : Work) (u : UserPt) : TableStep w.st (w.pend u).st := by
  unfold Work.pend
  dsimp only
  split
  · exact ((tableStep_onNt w _).trans (tableStep_setOverflow _ _)).trans (tableStep_flag _ _)
  · exact tableStep_onNt w _

theorem tableStep_withdraw (w : Work) (gone : UserPt → Bool) : TableStep w.st (w.withdraw gone).st := by
  unfold Work.withdraw
  split
  · dsimp only
    split
    · exact (tableStep_onNt w _).trans (tableStep_setOverflow _ _)
    · exact tableStep_onNt w _
  · exact .refl _

theorem tableStep_offerRecord (w : Work) : TableStep w.st w.offerRecord.st := by
  unfold Work.offerRecord
  split
  · exact .refl _
  · dsimp only
    have h := fun (u : UserPt) => (tableStep_onNt w fun t => { t with pendSet := t.pendSet.filter fun v => v ≠ u }).trans
      (tableStep_create _ .admission (UserPt.pt u) (w.st.admissionPhase u) .none)
    split
    · exact (h _).trans (tableStep_setOverflow _ _)
    · exact h _

theorem tableStep_retire (w : Work) (n : Notice) : TableStep w.st (w.retire n).st := by
  unfold Work.retire
  dsimp only
  split
  · exact (tableStep_remove _ _ _).trans (tableStep_offerRecord _)
  · exact tableStep_remove _ _ _

theorem tableStep_raiseUser (w : Work) (kind : RaiseKind) (u : UserPt) (field : NoticeField) :
    TableStep w.st (w.raiseUser kind u field).st := by
  unfold Work.raiseUser
  split
  · exact tableStep_pend _ _
  · exact tableStep_raiseNotice _ _ _ _

/-! ## Clears, acks, resets, flags of records -/

theorem tableStep_clearUser (w : Work) (u : UserPt) : TableStep w.st (w.clearUser u).st := by
  unfold Work.clearUser
  split
  · split
    · exact tableStep_withdraw _ _
    · exact .refl _
  · split
    · exact tableStep_retire _ _
    · split
      · exact tableStep_change _ _ _
      · split
        · exact tableStep_retire _ _
        · exact tableStep_change _ _ _
      · exact .refl _
      · exact .refl _

theorem tableStep_acked (w : Work) (n : Notice) (phase : Phase) : TableStep w.st (w.acked n phase).st :=
  (tableStep_dropMarker w n).trans (tableStep_change _ _ _)

theorem tableStep_ack (w : Work) (p : Pt) : TableStep w.st (w.ack p).st := by
  unfold Work.ack
  split
  · exact .refl _
  · split
    · exact .refl _
    · split
      · exact tableStep_acked _ _ _
      · exact .refl _
      · split
        · exact tableStep_acked _ _ _
        · exact tableStep_retire _ _
      · split
        · exact tableStep_retire _ _
        · exact .refl _

theorem tableStep_resetAt (w : Work) (p : Pt) : TableStep w.st (w.resetAt p).st := by
  unfold Work.resetAt
  split
  · exact .refl _
  · split
    · exact tableStep_retire _ _
    · exact .refl _

theorem tableStep_silenceAt (w : Work) (p : Pt) : TableStep w.st (w.silenceAt p).st := tableStep_change _ _ _

theorem tableStep_setStale (v : Bool) (w : Work) (p : Pt) : TableStep w.st (w.setStale v p).st := by
  unfold Work.setStale
  split
  · split
    · exact .refl _
    · exact tableStep_change _ _ _
  · exact .refl _

theorem tableStep_setChattering (v : Bool) (w : Work) (p : Pt) : TableStep w.st (w.setChattering v p).st := by
  unfold Work.setChattering
  split
  · split
    · exact .refl _
    · exact tableStep_change _ _ _
  · exact .refl _

theorem tableStep_reannounce (w : Work) (p : Pt) : TableStep w.st (w.reannounce p).st := by
  unfold Work.reannounce
  split
  · exact .refl _
  · next n _ =>
    split
    · dsimp only
      have h : TableStep w.st
          (if n.silenced = true then w.change p fun m => { m with silenced := false, realert := none } else w).st := by
        split
        · exact tableStep_change _ _ _
        · exact .refl _
      split
      · exact h.trans (tableStep_alertShown _ _)
      · exact h.trans (tableStep_flag _ _)
    · exact .refl _

theorem tableStep_returnToView (w : Work) (p : Pt) : TableStep w.st (w.returnToView p).st := by
  unfold Work.returnToView
  split
  · exact .refl _
  · exact tableStep_reannounce _ _

/-- Many operations of the table, one after another. -/
theorem tableStep_foldl {α : Type} (f : Work → α → Work) (h : ∀ w x, TableStep w.st (f w x).st) (l : List α) :
    ∀ w, TableStep w.st (l.foldl f w).st := by
  induction l with
  | nil => exact fun w => .refl _
  | cons x rest ih => exact fun w => (h w x).trans (ih (f w x))

theorem tableStep_ackAll (w : Work) (scope : List Pt) : TableStep w.st (w.ackAll scope).st :=
  tableStep_foldl _ tableStep_ack scope w

theorem tableStep_resetAll (w : Work) (scope : List Pt) : TableStep w.st (w.resetAll scope).st :=
  tableStep_foldl _ tableStep_resetAt scope w

theorem tableStep_releaseAll (w : Work) (children : List Pt) : TableStep w.st (w.releaseAll children).st :=
  tableStep_foldl _ tableStep_returnToView children w

/-! ## Changes of a condition -/

/-- Beside the condition of the point itself, a change of a user point's condition is what its edge and the release of its
children do at the Notice Table. -/
theorem tableStep_setUser (w : Work) (u : UserPt) (v edge : Bool) (h : w.st.active (UserPt.pt u) ≠ v) :
    TableStep (w.putCond (UserPt.pt u) v).st (w.setUser u v edge).st := by
  have release : ∀ (x : Work) (children : List Pt), TableStep (w.putCond (UserPt.pt u) v).st x.st →
      TableStep (w.putCond (UserPt.pt u) v).st
        (if x.st.ctl.mode = .run then x.releaseAll children else x).st := by
    intro x children hx
    split
    · exact hx.trans (tableStep_releaseAll _ _)
    · exact hx
  unfold Work.setUser
  rw [if_neg h]
  dsimp only
  apply release
  split
  · split
    · exact tableStep_raiseUser _ _ _ _
    · exact tableStep_clearUser _ _
  · exact .refl _

/-- A condition that has the value already is left, with no edge. -/
theorem setUser_same (w : Work) (u : UserPt) (v edge : Bool) (h : w.st.active (UserPt.pt u) = v) : w.setUser u v edge = w := by
  unfold Work.setUser
  rw [if_pos h]

/-- Beside the condition of the system point itself, a change of it is a raise or a clear at its notice. -/
theorem tableStep_setSystem (w : Work) (p : Pt) (v : Bool) (h : w.st.active p ≠ v) :
    TableStep (w.putCond p v).st (w.setSystem p v).st := by
  unfold Work.setSystem
  rw [if_neg h]
  dsimp only
  split
  · split
    · exact tableStep_raiseNotice _ _ _ _
    · exact tableStep_clearSystem _ _
  · exact .refl _

/-! ## Silence -/

/-- Beside the end of a running burst, a silence is what it does at the notices. -/
theorem tableStep_silenceAll (w : Work) :
    TableStep (w.st.withSnd { w.st.snd with chirp := none }) w.silenceAll.st := by
  have h := tableStep_foldl Work.silenceAt (fun x p => tableStep_silenceAt x p) w.st.soundingScope w
  refine ⟨h.pending, h.ctl, h.points, h.group, h.cond, h.shelf, h.lq, h.kp, ?_, h.pres, h.link⟩
  show { (w.st.soundingScope.foldl Work.silenceAt w).st.snd with chirp := none } = _
  rw [h.snd]
  rfl

end Sys2Proof.Machine
end

