-- ==== Sys2Proof/Laws/Events.lean ====
section
/-! SUPPORT. The end of an event (`settle`) and the run of a request: what each changes, said once. -/

namespace Sys2Proof.Machine

/-! ## Presentation's parts of an event -/

theorem PresStep.refl (a : Presentation) : PresStep a a := ⟨rfl, rfl, rfl, rfl, rfl, rfl, rfl, rfl, rfl, rfl⟩

theorem PresStep.trans {a b c : Presentation} (h : PresStep a b) (k : PresStep b c) : PresStep a c :=
  ⟨k.step.trans h.step, k.lineMode.trans h.lineMode, k.orient.trans h.orient, k.scrollHold.trans h.scrollHold,
   k.message.trans h.message, k.front.trans h.front, k.back.trans h.back, k.scan.trans h.scan, k.refresh.trans h.refresh,
   k.lamps.trans h.lamps⟩

theorem presStep_anchorWindow (s : State) (alerts : List Pt) : PresStep s.pres (s.anchorWindow alerts).pres :=
  ⟨rfl, rfl, rfl, rfl, rfl, rfl, rfl, rfl, rfl, rfl⟩

theorem presStep_requestComposition (s : State) : PresStep s.pres s.requestComposition.pres := by
  unfold State.requestComposition
  split <;> exact ⟨rfl, rfl, rfl, rfl, rfl, rfl, rfl, rfl, rfl, rfl⟩

theorem anchorWindow_eq (s : State) (alerts : List Pt) : s.anchorWindow alerts = s.withPres (s.anchorWindow alerts).pres := rfl

theorem requestComposition_eq (s : State) : s.requestComposition = s.withPres s.requestComposition.pres := by
  unfold State.requestComposition
  split <;> rfl

/-! ## settle -/

/-- Everything that the end of an event can do: it moves the window and the composer, and the chirp burst. -/
theorem settle_eq (before : State) (w : Work) :
    settle before w =
      (w.st.withPres (settle before w).pres).withSnd { w.st.snd with chirp := (settle before w).snd.chirp } := by
  unfold settle
  dsimp only
  split <;> split <;> first | rfl | (rw [requestComposition_eq]; rfl)

@[simp] theorem settle_pending (b : State) (w : Work) : (settle b w).pending = w.st.pending := by rw [settle_eq]; rfl
@[simp] theorem settle_ctl (b : State) (w : Work) : (settle b w).ctl = w.st.ctl := by rw [settle_eq]; rfl
@[simp] theorem settle_pt (b : State) (w : Work) : (settle b w).pt = w.st.pt := by rw [settle_eq]; rfl
@[simp] theorem settle_nt (b : State) (w : Work) : (settle b w).nt = w.st.nt := by rw [settle_eq]; rfl
@[simp] theorem settle_shelf (b : State) (w : Work) : (settle b w).shelf = w.st.shelf := by rw [settle_eq]; rfl
@[simp] theorem settle_lq (b : State) (w : Work) : (settle b w).lq = w.st.lq := by rw [settle_eq]; rfl
@[simp] theorem settle_kp (b : State) (w : Work) : (settle b w).kp = w.st.kp := by rw [settle_eq]; rfl
@[simp] theorem settle_link (b : State) (w : Work) : (settle b w).link = w.st.link := by rw [settle_eq]; rfl

/-- The Sounder's part of the end of an event is its chirp burst alone. -/
theorem settle_snd (b : State) (w : Work) :
    (settle b w).snd = { w.st.snd with chirp := (settle b w).snd.chirp } := by
  conv => lhs; rw [settle_eq]
  rfl

/-- Presentation's part of the end of an event is the window and the composer. -/
theorem presStep_settle (b : State) (w : Work) : PresStep w.st.pres (settle b w).pres := by
  unfold settle
  dsimp only
  split <;> split <;>
    first
    | exact .refl _
    | exact presStep_anchorWindow _ _
    | exact presStep_requestComposition _
    | exact (presStep_anchorWindow _ _).trans (presStep_requestComposition _)

/-- What the operations of the Notice Table leave as it was, and the end of their event, is the frame of the event. -/
theorem eventFrame_of_tableStep {a : State} {w : Work} (b : State) (h : TableStep a w.st) :
    EventFrame a (settle b w) := by
  have e := settle_eq b w
  have hp := presStep_settle b w
  refine ⟨?_, ?_, ?_, ?_, ?_, ?_, ?_, ?_, ?_, ?_⟩
  · rw [e]; exact h.pending
  · rw [e]; exact h.ctl
  · rw [e]; exact h.points
  · intro g; rw [e]; exact h.group g
  · rw [e]; exact h.shelf
  · rw [e]; exact h.lq
  · rw [e]; exact h.kp
  · rw [e]
    show { w.st.snd with chirp := (settle b w).snd.chirp } = { a.snd with chirp := (settle b w).snd.chirp }
    rw [h.snd]
  · have := h.pres
    rwa [this] at hp
  · rw [e]
    show w.st.link = { a.link with flags := w.st.link.flags, ran := w.st.link.ran }
    rw [h.link]

/-- An event that changes nothing the operator sees or hears, and asks for nothing, ends where its operations left it. -/
theorem settle_still (b : State) (w : Work) (hn : w.notify = false) (hc : w.compose = false)
    (hv : b.viewShape = w.st.viewShape) (hd : compositionDue b w.st = false)
    (hb : w.st.chirpAfter (w.alerts ++ w.chirps) = w.st.snd.chirp) : settle b w = w.st := by
  unfold settle
  simp [hn, hc, hv, hd, hb]
  rfl

/-- R123: with no candidate, a burst that no steady pattern ends goes on as it stood. -/
theorem chirpAfter_none (s : State) (h : s.ChirpOk) : s.chirpAfter [] = s.snd.chirp := by
  unfold State.chirpAfter
  cases hp : s.steadyPattern with
  | none => cases hs : s.snd.chirp <;> simp
  | some p =>
    cases hs : s.snd.chirp with
    | none => simp
    | some k => have := h (by simp [hs]); simp [hp] at this

@[simp] theorem event_eq (s : State) (f : Work → Work) : s.event f = settle s (f s.work) := rfl

/-! ## The run of a request -/

@[simp] theorem recordRun_pending (s : State) (r : Ran) : (s.recordRun r).pending = s.pending := rfl
@[simp] theorem recordRun_ctl (s : State) (r : Ran) : (s.recordRun r).ctl = s.ctl := rfl
@[simp] theorem recordRun_pt (s : State) (r : Ran) : (s.recordRun r).pt = s.pt := rfl
@[simp] theorem recordRun_nt (s : State) (r : Ran) : (s.recordRun r).nt = s.nt := rfl
@[simp] theorem recordRun_shelf (s : State) (r : Ran) : (s.recordRun r).shelf = s.shelf := rfl
@[simp] theorem recordRun_lq (s : State) (r : Ran) : (s.recordRun r).lq = s.lq := rfl
@[simp] theorem recordRun_kp (s : State) (r : Ran) : (s.recordRun r).kp = s.kp := rfl
@[simp] theorem recordRun_snd (s : State) (r : Ran) : (s.recordRun r).snd = s.snd := rfl
@[simp] theorem recordRun_pres (s : State) (r : Ran) : (s.recordRun r).pres = s.pres := rfl
@[simp] theorem recordRun_link (s : State) (r : Ran) : (s.recordRun r).link = { s.link with ran := some r } := rfl

/-- R200, R201: held in reset or with the oscillator standing, no request runs. -/
theorem request_out (s : State) (kind : Byte) (pl : List Byte) (v : Verdict) (h : s.inService = false) :
    s.request kind pl v = s := by
  simp [State.request, h]

/-- R180: a refusal or a report leaves every block as it stood; its reply is kept. -/
theorem request_answer (s : State) (kind : Byte) (pl : List Byte) (r : Result) (reply : List Byte) (h : s.inService = true) :
    s.request kind pl (.answer r reply) = s.recordRun { kind := kind, request := pl, result := r, reply := reply } := by
  simp [State.request, h]

/-- R165: an accepted request has its effect as one event; its reply is kept. -/
theorem request_act (s : State) (kind : Byte) (pl : List Byte) (r : Result) (w : Work) (h : s.inService = true) :
    s.request kind pl (.act r w) =
      (settle s w).recordRun { kind := kind, request := pl, result := r, reply := [] } := by
  simp [State.request, h]

@[simp] theorem lengthThen_true (v : Verdict) : lengthThen true v = v := rfl
@[simp] theorem lengthThen_false (v : Verdict) : lengthThen false v = .refuse .badLength := rfl
@[simp] theorem withArgs_some {α : Type} (a : α) (v : α → Verdict) : withArgs (some a) v = v a := rfl
@[simp] theorem withArgs_none {α : Type} (v : α → Verdict) : withArgs none v = .refuse .badArgument := rfl

theorem inMode_same (s : State) (m : Mode) (v : Verdict) (h : s.ctl.mode = m) : inMode s m v = v := by simp [inMode, h]

theorem inMode_other (s : State) (m : Mode) (v : Verdict) (h : s.ctl.mode ≠ m) : inMode s m v = .refuse .wrongMode := by
  simp [inMode, h]

/-- No request's run moves what the queue holds. -/
theorem request_pending (s : State) (kind : Byte) (pl : List Byte) (v : Verdict)
    (h : ∀ r w, v = .act r w → w.st.pending = s.pending) : (s.request kind pl v).pending = s.pending := by
  unfold State.request
  split
  · split
    · rfl
    · next r w => simpa using h r w rfl
  · rfl

end Sys2Proof.Machine
end

