-- ==== Sys2Proof/Laws/Lamps.lean ====
section
/-! SUPPORT. The lamp chain (R137): what its lines carry, and what the latch pulse brings to the lamps. -/

namespace Sys2Proof.Machine

/-- Tile 47 leaves first and tile 0 last. -/
theorem dataAt_eq (tiles : Vector Bool 48) (clock : Fin 48) : dataAt tiles clock = tiles.get ⟨47 - clock.val, by omega⟩ := by
  unfold dataAt
  rw [List.getElem_of_eq (show shiftedOut tiles = tiles.toList.reverse from rfl), List.getElem_reverse]
  simp [Vector.get]

/-- In reset every line of the lamp chain is held low. -/
theorem chainLine_inReset {s : State} (h : s.inReset = true) (l : ChainLine) (m : ChainMoment) : s.chainLine l m = false := by
  simp [State.chainLine, h]

/-- At a shift clock of a refresh the data line carries its tile. -/
theorem chainLine_data {s : State} {tiles : Vector Bool 48} (h : s.inReset = false) (hr : s.pres.refresh = some tiles)
    (clock : Fin 48) : s.chainLine .data (.shift clock) = tiles.get ⟨47 - clock.val, by omega⟩ := by
  simp [State.chainLine, h, hr, dataAt_eq]

/-- Bits clocked into a chain stand in it in reverse order, in front of what it held, and the chain keeps its length. -/
theorem chainAfter_eq (bits : List Bool) : ∀ chain : List Bool, chain.length = 48 →
    chainAfter bits chain = (bits.reverse ++ chain).take 48 := by
  induction bits with
  | nil => intro chain h; simp [chainAfter, ← h]
  | cons b rest ih =>
    intro chain h
    have h' : ((b :: chain).take 48).length = 48 := by simp [h]
    rw [show chainAfter (b :: rest) chain = chainAfter rest ((b :: chain).take 48) from rfl, ih _ h', List.reverse_cons,
      List.append_assoc, List.take_append, List.take_append, List.take_take]
    congr 2
    omega

/-- The latch pulse brings tile n to lamp n, whatever the lamps held. -/
theorem latched_eq (tiles lamps : Vector Bool 48) : latched tiles lamps = tiles := by
  have h : chainAfter (shiftedOut tiles) lamps.toList = tiles.toList := by
    rw [chainAfter_eq _ _ (by simp), shiftedOut, List.reverse_reverse, List.take_append_of_le_length (by simp),
      List.take_of_length_le (by simp)]
  unfold latched
  apply Vector.toArray_inj.1
  apply Array.toList_inj.1
  exact h

end Sys2Proof.Machine
end

