-- ==== Sys2Proof/Laws/Operands.lean ====
section
/-! SUPPORT. Every layout read back: the arguments that a payload was built from are the arguments that its reader finds. -/

namespace Sys2Proof.Machine

theorem byteOf_toNat {n : Nat} (h : n < 256) : (byteOf n).toNat = n := by
  simp [byteOf, BitVec.toNat_ofNat, Nat.mod_eq_of_lt h]

theorem parseFin_byteOf {n : Nat} (i : Fin n) (hn : n ≤ 256) : parseFin n (byteOf i.val) = some i := by
  have h : (byteOf i.val).toNat = i.val := byteOf_toNat (lt_of_lt_of_le i.isLt hn)
  simp [parseFin, h]

theorem parseOptFin_optByte {n : Nat} (o : Option (Fin n)) (hn : n ≤ 255) : parseOptFin n (optByte o) = some o := by
  cases o with
  | none => simp [parseOptFin, optByte]
  | some i =>
    have hi := i.isLt
    have hlt : i.val < 256 := by omega
    have hne : byteOf i.val ≠ 0xFF := by
      intro e
      have := congrArg BitVec.toNat e
      rw [byteOf_toNat hlt] at this
      simp at this
      omega
    unfold parseOptFin optByte
    rw [if_neg hne, parseFin_byteOf i (by omega)]
    rfl

theorem parseRange_byteOf {lo hi n : Nat} (h1 : lo ≤ n) (h2 : n ≤ hi) (h3 : hi < 256) :
    parseRange lo hi (byteOf n) = some n := by
  have : (byteOf n).toNat = n := byteOf_toNat (by omega)
  simp [parseRange, this, h1, h2]

@[simp] theorem parseBool_bit (b : Bool) : parseBool (bit b) = some b := by cases b <;> rfl
@[simp] theorem pointClass_ofCode_code (c : PointClass) : PointClass.ofCode c.code = some c := by cases c <;> rfl
@[simp] theorem sequence_ofCode_code (c : Sequence) : Sequence.ofCode c.code = some c := by cases c <;> rfl
@[simp] theorem lineMode_ofCode_code (c : LineMode) : LineMode.ofCode c.code = some c := by cases c <;> rfl
@[simp] theorem orientation_ofCode_code (c : Orientation) : Orientation.ofCode c.code = some c := by cases c <;> rfl
@[simp] theorem polarity_ofCode_code (c : Polarity) : Polarity.ofCode c.code = some c := by cases c <;> rfl
@[simp] theorem outMode_ofCode_code (c : OutMode) : OutMode.ofCode c.code = some c := by cases c <;> rfl

theorem parseText_some {lo hi : Nat} {t : Text} (h1 : lo ≤ t.length) (h2 : t.length ≤ hi) (h3 : t.all printable = true) :
    parseText lo hi t = some t := by
  unfold parseText
  rw [if_pos ⟨h1, h2, h3⟩]

/-- R182: the length that fits WRITE_POINT. -/
theorem pointLengthOk_pointPayload (u : UserPt) (r : PointRec) (h : r.label.length ≤ 32) :
    pointLengthOk (pointPayload u r) = true := by
  have : (byteOf r.label.length).toNat = r.label.length := byteOf_toNat (by omega)
  simp [pointLengthOk, pointPayload, this]
  omega

theorem parsePoint_pointPayload (u : UserPt) (r : PointRec) (h1 : r.label.length ≤ 16) (h2 : r.label.all printable = true)
    (h3 : r.shelveLimit ≤ 240) : parsePoint (pointPayload u r) = some (u, r) := by
  simp [parsePoint, pointPayload, parseFin_byteOf, parseOptFin_optByte, parseRange_byteOf (Nat.zero_le _) h3,
    parseText_some (Nat.zero_le _) h1 h2]

theorem parseGroup_payload (a : GroupWrite) (h1 : 1 ≤ a.level) (h2 : a.level ≤ 4) : parseGroup a.payload = some a := by
  simp [parseGroup, GroupWrite.payload, parseFin_byteOf, parseRange_byteOf h1 h2]

theorem parseLine_payload (a : LineWrite) (h1 : 1 ≤ a.qualifyOn) (h2 : a.qualifyOn ≤ 250) (h3 : 1 ≤ a.qualifyOff)
    (h4 : a.qualifyOff ≤ 250) (h5 : a.chatterLimit = 0 ∨ (3 ≤ a.chatterLimit ∧ a.chatterLimit ≤ 15)) :
    parseLine a.payload = some a := by
  have hl : parseLimit (byteOf a.chatterLimit) = some a.chatterLimit := by
    unfold parseLimit
    rcases h5 with h | ⟨h, h'⟩
    · simp [h, byteOf]
    · rw [if_neg, parseRange_byteOf h h' (by omega)]
      intro e
      have := congrArg BitVec.toNat e
      rw [byteOf_toNat (by omega)] at this
      simp at this
      omega
  simp [parseLine, LineWrite.payload, parseFin_byteOf, parseOptFin_optByte, parseRange_byteOf h1 h2, parseRange_byteOf h3 h4, hl]

theorem parsePanel_payload (a : PanelSettings) (h1 : 1 ≤ a.floor) (h2 : a.floor ≤ 5) (h3 : a.realertMin ≤ 60)
    (h4 : a.supervision ≤ 255) (h5 : 5 ≤ a.scrollHold) (h6 : a.scrollHold ≤ 120) (h7 : 10 ≤ a.window) (h8 : a.window ≤ 250) :
    parsePanel a.payload = some a := by
  simp [parsePanel, PanelSettings.payload, parseRange_byteOf h1 h2, parseRange_byteOf (Nat.zero_le _) h3,
    parseRange_byteOf h5 h6, parseRange_byteOf h7 h8, byteOf_toNat (show a.supervision < 256 by omega)]

theorem parseOut_payload (a : OutWrite) (h : a.mode.paramOk a.param = true) : parseOut a.payload = some a := by
  have hp : a.param < 256 := by
    unfold OutMode.paramOk at h
    split at h <;> simp at h <;> omega
  simp [parseOut, OutWrite.payload, parseFin_byteOf, byteOf_toNat hp, h]

theorem parseSetOut_payload (k : OutNo) (v : Bool) : parseSetOut [byteOf k.val, bit v] = some (k, v) := by
  simp [parseSetOut, parseFin_byteOf]

theorem parseField_bytes (f : NoticeField) (h : f.ok = true) :
    ∃ k d, f.bytes = k :: d ∧ parseField k d = some f ∧ d.length ≤ 6 := by
  cases f with
  | none => exact ⟨0, [], rfl, by simp [parseField], by simp⟩
  | value v =>
    refine ⟨1, be16 v.toNat, rfl, ?_, by simp [be16]⟩
    have hv := v.isLt
    have h1 : (BitVec.ofNat 8 (v.toNat / 256)).toNat = v.toNat / 256 := by
      simp only [BitVec.toNat_ofNat]; omega
    have h3 : v.toNat / 256 * 256 + v.toNat % 256 = v.toNat := by omega
    simp [parseField, be16, h1, h3, -BitVec.toNat_ofNat]
  | text t =>
    simp [NoticeField.ok] at h
    have ht : parseText 1 6 t = some t := parseText_some h.1.1 h.1.2 (by simpa using h.2)
    exact ⟨2, t, rfl, by simp [parseField, ht], h.1.2⟩

theorem parseRaise_raisePayload (u : UserPt) (f : NoticeField) (h : f.ok = true) :
    parseRaise (raisePayload u f) = some (u, f) := by
  obtain ⟨k, d, e, p, _⟩ := parseField_bytes f h
  simp [parseRaise, raisePayload, e, p, parseFin_byteOf]

theorem parseScope_payload (c : Scope) : parseScope c.payload = some c := by
  cases c <;> simp [parseScope, Scope.payload, parseFin_byteOf]

theorem parseOne_byteOf {n : Nat} (i : Fin n) (hn : n ≤ 256) : parseOne n [byteOf i.val] = some i := by
  simp [parseOne, parseFin_byteOf i hn]

theorem parseShelve_payload (p : Pt) (m : Nat) (h1 : 1 ≤ m) (h2 : m ≤ 240) :
    parseShelve [byteOf p.val, byteOf m] = some (p, m) := by
  simp [parseShelve, parseFin_byteOf, parseRange_byteOf h1 h2]

theorem parseLock_setWidth (m : BitVec 6) : parseLock [m.setWidth 8] = some m := by
  have hm := m.isLt
  have h1 : (m.setWidth 8).toNat = m.toNat := by
    simp only [BitVec.toNat_setWidth]; omega
  have h2 : (m.setWidth 8).setWidth 6 = m := by
    apply BitVec.eq_of_toNat_eq
    simp only [BitVec.toNat_setWidth]; omega
  simp only [parseLock, h1, h2]
  rw [if_pos (by omega)]

end Sys2Proof.Machine
end

