-- ==== Sys2Proof/Laws/Order.lean ====
section
/-! SUPPORT. The ascending lists of the Notice Table, the Rank List's order, and the Shelf List's order: each insertion keeps
the order and adds one member. -/

namespace Sys2Proof.Machine

/-! ## Notices in ascending point number -/

theorem mem_insertNotice (n m : Notice) (l : List Notice) : m ∈ insertNotice n l ↔ m = n ∨ m ∈ l := by
  induction l with
  | nil => simp [insertNotice]
  | cons x rest ih =>
    unfold insertNotice
    split
    · simp
    · simp [ih]; tauto

/-- A notice of a point that has none keeps the list strictly ascending. -/
theorem pairwise_insertNotice (n : Notice) (l : List Notice) (h : l.Pairwise fun a b => a.point < b.point)
    (hn : ∀ m ∈ l, m.point ≠ n.point) : (insertNotice n l).Pairwise fun a b => a.point < b.point := by
  induction l with
  | nil => simp [insertNotice]
  | cons x rest ih =>
    have hx := List.pairwise_cons.mp h
    unfold insertNotice
    split
    · next hlt =>
      refine List.pairwise_cons.mpr ⟨?_, h⟩
      intro m hm
      rcases List.mem_cons.mp hm with rfl | hm
      · exact hlt
      · exact lt_trans hlt (hx.1 m hm)
    · next hge =>
      refine List.pairwise_cons.mpr ⟨?_, ih hx.2 fun m hm => hn m (by simp [hm])⟩
      intro m hm
      rcases (mem_insertNotice n m rest).mp hm with rfl | hm
      · exact lt_of_le_of_ne (not_lt.mp hge) (hn x (by simp))
      · exact hx.1 m hm

theorem length_insertNotice (n : Notice) (l : List Notice) : (insertNotice n l).length = l.length + 1 := by
  induction l with
  | nil => rfl
  | cons x rest ih => unfold insertNotice; split <;> simp [ih]

/-- The live notice of a point is a member of the table with that point. -/
theorem notice?_some {s : State} {p : Pt} {n : Notice} (h : s.notice? p = some n) : n ∈ s.nt.notices ∧ n.point = p := by
  have h1 := List.mem_of_find?_eq_some h
  have h2 := List.find?_some h
  exact ⟨h1, by simpa using h2⟩

theorem notice?_none {s : State} {p : Pt} : s.notice? p = none ↔ ∀ n ∈ s.nt.notices, n.point ≠ p := by
  simp [State.notice?]

/-! ## The Pending Set -/

theorem mem_insertPoint (u v : UserPt) (l : List UserPt) : v ∈ insertPoint u l ↔ v = u ∨ v ∈ l := by
  induction l with
  | nil => simp [insertPoint]
  | cons x rest ih =>
    unfold insertPoint
    split
    · simp
    · split
      · next e => subst e; simp
      · simp [ih]; tauto

theorem pairwise_insertPoint (u : UserPt) (l : List UserPt) (h : l.Pairwise (· < ·)) :
    (insertPoint u l).Pairwise (· < ·) := by
  induction l with
  | nil => simp [insertPoint]
  | cons x rest ih =>
    have hx := List.pairwise_cons.mp h
    unfold insertPoint
    split
    · next hlt =>
      refine List.pairwise_cons.mpr ⟨?_, h⟩
      intro m hm
      rcases List.mem_cons.mp hm with rfl | hm
      · exact hlt
      · exact lt_trans hlt (hx.1 m hm)
    · split
      · exact h
      · next hge hne =>
        refine List.pairwise_cons.mpr ⟨?_, ih hx.2⟩
        intro m hm
        rcases (mem_insertPoint u m rest).mp hm with rfl | hm
        · exact lt_of_le_of_ne (not_lt.mp hge) (Ne.symm hne)
        · exact hx.1 m hm

theorem insertPoint_ne_nil (u : UserPt) (l : List UserPt) : insertPoint u l ≠ [] := by
  cases l with
  | nil => simp [insertPoint]
  | cons x rest => unfold insertPoint; split <;> [simp; (split <;> simp)]

/-! ## The Rank List -/

theorem perm_rankInsert (n : Notice) (l : List Notice) : (rankInsert n l).Perm (n :: l) := by
  induction l with
  | nil => exact .refl _
  | cons m rest ih =>
    unfold rankInsert
    split
    · exact .refl _
    · exact (List.Perm.cons m ih).trans (.swap n m rest)

/-- R50: the Rank List holds every live notice exactly once. -/
theorem perm_rankSort (l : List Notice) : (rankSort l).Perm l := by
  induction l with
  | nil => exact .refl _
  | cons n rest ih => exact (perm_rankInsert n _).trans (List.Perm.cons n ih)

theorem perm_rankList (s : State) : s.rankList.Perm s.nt.notices := perm_rankSort _

theorem mem_presented {s : State} {n : Notice} : n ∈ s.presented ↔ n ∈ s.nt.notices ∧ s.withheld n.point = false := by
  unfold State.presented
  rw [List.mem_filter, (perm_rankList s).mem_iff]
  simp

end Sys2Proof.Machine
end

