-- ==== Sys2Proof/Laws/Records.lean ====
section
/-! SUPPORT. A record read after a record of its kind was written: of lines, keys, points, groups, conditions, output lines. -/

namespace Sys2Proof.Machine

theorem lineRec_putLine (s : State) (l k : LineNo) (r : LineRec) :
    (s.putLine l r).lineRec k = if k = l then r else s.lineRec k := get_set_eq _ _ _ _

theorem keyRec_putKey (s : State) (k j : KeyNo) (r : KeyRec) :
    (s.putKey k r).keyRec j = if j = k then r else s.keyRec j := get_set_eq _ _ _ _

theorem pointRec_putPoint (s : State) (u v : UserPt) (r : PointRec) :
    (s.putPoint u r).pointRec v = if v = u then r else s.pointRec v := get_set_eq _ _ _ _

theorem outRec_putOut (s : State) (k j : OutNo) (r : OutRec) :
    (s.putOut k r).snd.outs.get j = if j = k then r else s.snd.outs.get j := get_set_eq _ _ _ _

theorem groupRec_setMarker (w : Work) (g h : GroupNo) (m : Option UserPt) :
    (w.setMarker g m).st.groupRec h = if h = g then { w.st.groupRec g with marker := m } else w.st.groupRec h :=
  get_set_eq _ _ _ _

theorem groupRec_putGroup (s : State) (a : GroupWrite) (h : GroupNo) :
    (s.putGroup a).groupRec h =
      if h = a.group then
        { s.groupRec a.group with level := a.level, enabled := a.enabled, firstOutEnable := a.firstOutEnable }
      else s.groupRec h := get_set_eq _ _ _ _

theorem active_putCond (w : Work) (p q : Pt) (v : Bool) :
    (w.putCond p v).st.active q = if q = p then v else w.st.active q := get_set_eq _ _ _ _

end Sys2Proof.Machine
end

