-- ==== Sys2Proof/Laws/Replies.lean ====
section
/-! SUPPORT. The lengths of the payloads of a LOOKUP reply, which R183 states. -/

namespace Sys2Proof.Machine

/-- R179, R33: a field takes 1 to 7 bytes, its kind among them. -/
theorem NoticeField.bytes_length {f : NoticeField} (h : f.ok = true) : 1 ≤ f.bytes.length ∧ f.bytes.length ≤ 7 := by
  cases f with
  | none => simp [bytes]
  | value v => simp [bytes, be16]
  | text t =>
    simp only [ok, Bool.and_eq_true, decide_eq_true_eq] at h
    simp only [bytes, List.length_cons]
    omega

/-- The fields that R183 names before the field kind take 15 bytes. -/
theorem State.lookupRecord_length (s : State) (n : Notice) : (s.lookupRecord n).length = 15 + n.field.bytes.length := by
  simp only [lookupRecord, be16, List.length_append, List.length_cons, List.length_nil]

/-- R183: an OK reply to LOOKUP has 16 to 22 bytes; they are the fields that R183 names, so a label has no room (log 24). -/
theorem State.lookupRecord_length_bounds (s : State) {n : Notice} (h : n.field.ok = true) :
    16 ≤ (s.lookupRecord n).length ∧ (s.lookupRecord n).length ≤ 22 := by
  have := NoticeField.bytes_length h
  rw [lookupRecord_length]
  omega

/-- R183, R194: a NO_NOTICE reply to LOOKUP has five bytes. -/
theorem State.lookupStatus_length (s : State) (p : Pt) : (s.lookupStatus p).length = 5 := rfl

end Sys2Proof.Machine
end

