-- ==== Sys2Proof/Laws/Step.lean ====
section
/-! SUPPORT. What every step has in common: no command stops the part, and none moves the queue behind it. -/

namespace Sys2Proof.Machine

/-- Every command completes in every state. -/
theorem exec_completes (c : Instr) (s : State) : ∃ t, exec c s = .next t := by
  cases c <;> exact ⟨_, rfl⟩

/-- The state that a command leaves. -/
theorem exec_next_unique {c : Instr} {s t v : State} (h : exec c s = .next t) (k : exec c s = .next v) : t = v := by
  rw [h] at k
  injection k

/-- Every step answers a next state. -/
theorem step_completes (s : State) : ∃ t, step s = .next t := by
  unfold step
  split
  · exact ⟨_, rfl⟩
  · exact exec_completes _ _

end Sys2Proof.Machine
end

