-- ==== Sys2Proof/Laws/Text.lean ====
section
/-! SUPPORT. The texts of a frame (R147 to R153), read cell by cell in the words of Sys2Proof/Safety.lean: a row of text, a number
in decimal, a notice line, the status line, a snapshot. -/

namespace Sys2Proof.Machine

/-! ## A row of text -/

/-- A cell of a row of text: the character of the text at its place, a space past its end. -/
theorem get_textRow (t : Text) (i : Fin 20) : (textRow t).get i = (t[i.val]?).getD 0x20 := by
  have hi : i.val < ((t ++ List.replicate 20 Config.space).take 20).length := by simp
  have h : (textRow t).get i = ((t ++ List.replicate 20 Config.space).take 20)[i.val]'hi := rfl
  rw [h, List.getElem_take]
  by_cases ht : i.val < t.length
  · rw [List.getElem_append_left ht, List.getElem?_eq_getElem ht, Option.getD_some]
  · rw [List.getElem_append_right (by omega), List.getElem?_eq_none (by omega), List.getElem_replicate]
    rfl

theorem get_blankRow (i : Fin 20) : blankRow.get i = 0x20 := get_replicate _ i

/-- Texts that agree within the cells read alike. -/
theorem ReadsAt.congr {row : Vector Byte 20} {first cells : Nat} {t u : Text} (h : ReadsAt row first cells t)
    (e : ∀ k < cells, (t[k]?).getD 0x20 = (u[k]?).getD 0x20) : ReadsAt row first cells u :=
  fun i h1 h2 => (h i h1 h2).trans (e _ (by omega))

theorem readsAt_textRow (t : Text) : ReadsAt (textRow t) 0 20 t := fun i _ _ => get_textRow t i

theorem readsAt_blankRow : ReadsAt blankRow 0 20 [] := fun i _ _ => get_blankRow i

/-- A text padded to a number of cells, read within them. -/
theorem padRight_get (cells k : Nat) (t : Text) (h : k < cells) : (padRight cells t)[k]? = some ((t[k]?).getD 0x20) := by
  unfold padRight
  rw [List.getElem?_take_of_lt h]
  by_cases ht : k < t.length
  · rw [List.getElem?_append_left ht, List.getElem?_eq_getElem ht, Option.getD_some]
  · rw [List.getElem?_append_right (by omega), List.getElem?_eq_none (l := t) (by omega),
      List.getElem?_eq_getElem (by simp; omega), List.getElem_replicate]
    rfl

@[simp] theorem length_padRight (cells : Nat) (t : Text) : (padRight cells t).length = cells := by
  simp [padRight]

/-- Behind one cell, a padded text reads as the text. -/
theorem readsAt_padRight (c : Byte) (cells : Nat) (t rest : Text) :
    ReadsAt (textRow (c :: padRight cells t ++ rest)) 1 cells t := by
  intro i h1 h2
  obtain ⟨j, hj⟩ : ∃ j, i.val = j + 1 := ⟨i.val - 1, by omega⟩
  rw [get_textRow, hj, List.cons_append, List.getElem?_cons_succ,
    List.getElem?_append_left (by rw [length_padRight]; omega), padRight_get _ _ _ (by omega)]
  rfl

/-- Behind one cell and a padded text, the rest of a row of text. -/
theorem get_behind_padRight (c : Byte) (cells : Nat) (t rest : Text) (i : Fin 20) (h : cells + 1 ≤ i.val) :
    (textRow (c :: padRight cells t ++ rest)).get i = (rest[i.val - (cells + 1)]?).getD 0x20 := by
  obtain ⟨j, hj⟩ : ∃ j, i.val = j + 1 := ⟨i.val - 1, by omega⟩
  rw [get_textRow, hj, List.cons_append, List.getElem?_cons_succ,
    List.getElem?_append_right (by rw [length_padRight]; omega), length_padRight]
  congr 2
  omega

theorem readsAt_behind_padRight (c : Byte) (cells n : Nat) (t rest : Text) :
    ReadsAt (textRow (c :: padRight cells t ++ rest)) (cells + 1) n rest :=
  fun i h1 _ => get_behind_padRight c cells t rest i h1

/-! ## Numbers -/

theorem digit_eq (n : Nat) : digit n = digitAt n 0 := by simp [digit, digitAt]

theorem digitAt_div (n k : Nat) : digitAt (n / 10) k = digitAt n (k + 1) := by
  simp only [digitAt, Nat.div_div_eq_div_mul, Nat.pow_succ, Nat.mul_comm]

/-- A number in decimal, read from its last digit: the digit of each power of ten that the number reaches, and the last. -/
theorem decimal_get : ∀ (f n k : Nat), n < 10 ^ (f + 1) →
    (decimal f n).reverse[k]? = if k = 0 ∨ 10 ^ k ≤ n then some (digitAt n k) else none
  | 0, n, 0, _ => by simp [decimal, digit_eq]
  | 0, n, k + 1, h => by
    have : ¬10 ^ (k + 1) ≤ n := by
      have := Nat.one_le_pow k 10 (by omega)
      rw [Nat.pow_succ]; omega
    simp [decimal, this]
  | f + 1, n, k, h => by
    unfold decimal
    split
    · next hn =>
      cases k with
      | zero => simp [digit_eq]
      | succ k =>
        have : ¬10 ^ (k + 1) ≤ n := by
          have := Nat.one_le_pow k 10 (by omega)
          rw [Nat.pow_succ]; omega
        simp [this]
    · next hn =>
      rw [List.reverse_append]
      cases k with
      | zero => simp [digit_eq]
      | succ k =>
        rw [List.reverse_singleton, List.singleton_append, List.getElem?_cons_succ,
          decimal_get f (n / 10) k (by rw [Nat.pow_succ] at h; omega), digitAt_div]
        have hp : 10 ^ k ≤ n / 10 ↔ 10 ^ (k + 1) ≤ n := by
          rw [Nat.le_div_iff_mul_le (by omega), Nat.pow_succ]
        have h1 : k = 0 → 10 ^ (k + 1) ≤ n := by rintro rfl; simpa using hn
        simp only [Nat.succ_ne_zero, false_or, hp]
        by_cases hk : 10 ^ (k + 1) ≤ n
        · rw [if_pos (Or.inr hk), if_pos hk]
        · rw [if_neg (by rintro (e | e); exacts [hk (h1 e), hk e]), if_neg hk]

/-- A text right-aligned in a number of cells, read from the last cell. -/
theorem padLeft_get (cells k : Nat) (t : Text) (ht : t.length ≤ cells) (hk : k < cells) :
    ((padLeft cells t)[cells - 1 - k]?).getD 0x20 = (t.reverse[k]?).getD 0x20 := by
  unfold padLeft
  by_cases h : k < t.length
  · rw [List.getElem?_append_right (by simp; omega), List.getElem?_reverse h, List.length_replicate]
    congr 2
    omega
  · rw [List.getElem?_append_left (by simp; omega), List.getElem?_replicate,
      List.getElem?_eq_none (l := t.reverse) (by simp; omega)]
    split <;> rfl

theorem length_decimal : ∀ f n : Nat, (decimal f n).length ≤ f + 1
  | 0, _ => by simp [decimal]
  | f + 1, n => by
    unfold decimal
    split
    · simp
    · have := length_decimal f (n / 10)
      simp only [List.length_append, List.length_singleton]
      omega

/-- R147: a VALUE in signed decimal, read from its last digit. -/
theorem signedDecimal_get (v : BitVec 16) (k : Nat) :
    ((signedDecimal v).reverse[k]?).getD 0x20 =
      if k = 0 ∨ 10 ^ k ≤ v.toInt.natAbs then digitAt v.toInt.natAbs k
      else if v.toInt < 0 ∧ 10 ^ (k - 1) ≤ v.toInt.natAbs then 0x2D
      else 0x20 := by
  have hv := v.isLt
  unfold signedDecimal
  by_cases hm : v.msb = true
  · have hi : v.toInt = (v.toNat : Int) - 65536 := by rw [BitVec.toInt_eq_msb_cond, if_pos hm]; rfl
    have hn : v.toInt.natAbs = 65536 - v.toNat := by omega
    rw [if_pos hm, hn, List.reverse_cons]
    have hd := fun k => decimal_get 4 (65536 - v.toNat) k (by
      have := BitVec.le_toNat_of_msb_true hm
      simp at this
      omega)
    by_cases hk : k = 0 ∨ 10 ^ k ≤ 65536 - v.toNat
    · have := hd k
      rw [if_pos hk] at this
      obtain ⟨hlt, _⟩ := List.getElem?_eq_some_iff.1 this
      rw [List.getElem?_append_left hlt, this, if_pos hk]
      rfl
    · have hno := hd k
      rw [if_neg hk] at hno
      have hlen := List.getElem?_eq_none_iff.1 hno
      rw [List.getElem?_append_right hlen, if_neg hk]
      have hprev := hd (k - 1)
      by_cases hp : 10 ^ (k - 1) ≤ 65536 - v.toNat
      · rw [if_pos (Or.inr hp)] at hprev
        obtain ⟨hlt, _⟩ := List.getElem?_eq_some_iff.1 hprev
        rw [if_pos ⟨by omega, hp⟩, show k - (decimal 4 (65536 - v.toNat)).reverse.length = 0 by omega]
        rfl
      · have h0 : ¬k - 1 = 0 := fun e => hp (by rw [e]; omega)
        rw [if_neg (by rintro (e | e); exacts [h0 e, hp e])] at hprev
        have hlen' := List.getElem?_eq_none_iff.1 hprev
        rw [if_neg (fun e => hp e.2), List.getElem?_eq_none (by simp at hlen' ⊢; omega)]
        rfl
  · have hlt := BitVec.toNat_lt_of_msb_false (by simpa using hm)
    have hi : v.toInt = (v.toNat : Int) := by rw [BitVec.toInt_eq_msb_cond, if_neg hm]
    have hn : v.toInt.natAbs = v.toNat := by omega
    rw [if_neg hm, hn, decimal_get 4 v.toNat k (by simp at hlt; omega)]
    by_cases hk : k = 0 ∨ 10 ^ k ≤ v.toNat
    · rw [if_pos hk, if_pos hk]; rfl
    · rw [if_neg hk, if_neg hk, if_neg (by omega)]; rfl

theorem length_signedDecimal (v : BitVec 16) : (signedDecimal v).length ≤ 6 := by
  unfold signedDecimal
  split
  · have := length_decimal 4 (65536 - v.toNat)
    simp only [List.length_cons]
    omega
  · have := length_decimal 4 v.toNat
    omega

/-! ## The lines of a frame -/

/-- R147: the count cells, by the size of the count. -/
theorem countCells_get (n k : Nat) (hk : k < 3) :
    (n = 1 → ((countCells n)[k]?).getD 0x20 = 0x20) ∧
    (2 ≤ n → n ≤ 9 → ((countCells n)[k]?).getD 0x20 = (([0x78, digitAt n 0] : Text)[k]?).getD 0x20) ∧
    (10 ≤ n → n ≤ 99 → ((countCells n)[k]?).getD 0x20 = (([0x78, digitAt n 1, digitAt n 0] : Text)[k]?).getD 0x20) ∧
    (100 ≤ n → ((countCells n)[k]?).getD 0x20 = (([0x78, 0x2B, 0x2B] : Text)[k]?).getD 0x20) := by
  unfold countCells
  refine ⟨fun h => ?_, fun h1 h2 => ?_, fun h1 h2 => ?_, fun h => ?_⟩
  · rw [if_pos h]; interval_cases k <;> rfl
  · rw [if_neg (by omega), if_pos (by omega), show decimal 1 n = [digitAt n 0] by
      rw [decimal, if_pos (by omega), digit_eq]]
    interval_cases k <;> rfl
  · rw [if_neg (by omega), if_pos (by omega), show decimal 1 n = [digitAt n 1, digitAt n 0] by
      rw [decimal, if_neg (by omega), decimal, digit_eq, digit_eq, digitAt_div]; rfl]
    interval_cases k <;> rfl
  · rw [if_neg (by omega), if_neg (by omega)]

/-- R147, R148: a row of text that holds a notice line reads as one, whatever the notice and the label. -/
theorem noticeLine_reads (n : Notice) (label : Text) : NoticeLineReads (textRow (noticeLine n label)) n label := by
  constructor
  · rw [get_textRow]
    unfold noticeLine
    cases n.field <;> rfl
  · unfold noticeLine
    cases n.field with
    | none =>
      have hc := readsAt_behind_padRight n.marker 16 3 label (countCells n.count)
      exact ⟨readsAt_padRight _ _ _ _,
        fun h => hc.congr fun k hk => (countCells_get n.count k hk).1 h,
        fun h1 h2 => hc.congr fun k hk => (countCells_get n.count k hk).2.1 h1 h2,
        fun h1 h2 => hc.congr fun k hk => (countCells_get n.count k hk).2.2.1 h1 h2,
        fun h => hc.congr fun k hk => (countCells_get n.count k hk).2.2.2 h⟩
    | value v =>
      refine ⟨readsAt_padRight _ _ _ _, fun k => ?_⟩
      rw [get_behind_padRight _ _ _ _ _ (show 13 + 1 ≤ 19 - k.val by omega), ← signedDecimal_get,
        ← padLeft_get 6 k.val _ (length_signedDecimal v) k.isLt]
      congr 2
      show 19 - k.val - (13 + 1) = 6 - 1 - k.val
      omega
    | text t =>
      exact ⟨readsAt_padRight _ _ _ _, (readsAt_behind_padRight n.marker 13 6 label (padRight 6 t)).congr fun k hk => by
        rw [padRight_get _ _ _ hk, Option.getD_some]⟩

/-- R149: a row of text that holds the status line reads as it. -/
theorem statusLine_reads (c : Snapshot) : StatusLineReads (textRow c.statusLine) c := by
  have two (n : Nat) : twoDigits n = [digitAt (min n 99) 1, digitAt (min n 99) 0] := by
    simp [twoDigits, digit_eq, ← digitAt_div]
  unfold Snapshot.statusLine StatusLineReads
  simp only [two]
  by_cases hp : c.presented = 0
  all_goals
    simp only [hp, if_true, if_false]
    refine ⟨?_, ?_, ?_, ?_, ?_, ?_, ?_, ?_, ?_, ?_, ?_⟩ <;>
      (intro i h1 h2; rw [get_textRow]; obtain ⟨i, hi⟩ := i; dsimp only at h1 h2; interval_cases i <;> rfl)

/-- R147, R148: where a frame shows notice row i of a snapshot, with its attribute, it reads as that row. -/
theorem noticeRow_reads (f : Frame) (r : Fin 4) (c : Snapshot) (i : Nat) (hc : f.cells.get r = c.row i)
    (hm : f.marks.get r = c.mark i) : NoticeRowReads f r c i := by
  unfold Snapshot.row at hc
  unfold Snapshot.mark at hm
  constructor
  · rintro ⟨n, label⟩ h
    rw [h] at hc hm
    rw [hc, hm]
    exact ⟨noticeLine_reads n label, rfl⟩
  · intro h
    rw [h] at hc hm
    rw [hc, hm]
    exact ⟨readsAt_blankRow, rfl⟩

/-- R1, R147: the label as the panel shows it. -/
theorem shownLabel_eq (s : State) (p : Pt) :
    s.shownLabel p =
      if s.labelOf p = [] then [0x50, 0x4F, 0x49, 0x4E, 0x54, 0x20, digitAt p.val 2, digitAt p.val 1, digitAt p.val 0]
      else s.labelOf p := by
  unfold State.shownLabel
  split
  · next h => rw [if_pos h]; simp [digit, digitAt, Config.pointWord]
  · next h => rw [if_neg (by rw [h]; simp), h]

/-- R153: what the snapshot of a state takes. -/
theorem snapshot_takes (s : State) : SnapshotTakes s s.snapshot := by
  refine ⟨rfl, rfl, rfl, ?_, fun i => ?_, ?_, rfl, rfl, ?_, rfl⟩
  · simp only [State.snapshot, State.windowNotices, List.length_map, List.length_take]
    exact Nat.min_le_left _ _
  · have hi : i.val < s.pres.lineMode.windowSize := i.isLt
    simp only [State.snapshot, State.windowNotices, List.getElem?_map, List.getElem?_take_of_lt hi, List.getElem?_drop,
      shownLabel_eq]
  · simp only [State.snapshot]
    congr 2
    funext n
    cases n.phase <;> rfl
  · simp [State.snapshot]

end Sys2Proof.Machine
end

