-- ==== Sys2Proof/Laws/Window.lean ====
section
/-! SUPPORT. What the end of an event does to the chirp burst and to the window, in the words of Sys2Proof/Safety.lean. -/

namespace Sys2Proof.Machine

/-! ## The chirp burst -/

/-- The end of an event reads the table, the view and the floor for the chirp burst, and no part of Presentation. -/
theorem settle_chirp (b : State) (w : Work) : (settle b w).snd.chirp = w.st.chirpAfter (w.alerts ++ w.chirps) := by
  unfold settle
  dsimp only
  split <;> split <;> first | rfl | (rw [requestComposition_eq]; rfl)

@[simp] theorem settle_steadyPattern (b : State) (w : Work) : (settle b w).steadyPattern = w.st.steadyPattern := by
  rw [settle_eq]; rfl

@[simp] theorem settle_sounding (b : State) (w : Work) : (settle b w).sounding = w.st.sounding := by
  rw [settle_eq]; rfl

/-- A steady pattern is none of CHIRP and SILENT. -/
theorem steadyPattern_ne {s : State} {p : HornPattern} (h : s.steadyPattern = some p) : p ≠ .chirp ∧ p ≠ .silent := by
  unfold State.steadyPattern at h
  split at h
  · cases h; decide
  · split at h
    · cases h; decide
    · split at h
      · cases h; decide
      · split at h
        · cases h; decide
        · cases h

/-- R121: a steady pattern applies exactly if the horn pattern is neither CHIRP nor SILENT. -/
theorem hornPattern_steady (s : State) :
    (s.hornPattern ≠ .chirp ∧ s.hornPattern ≠ .silent) ↔ s.steadyPattern.isSome = true := by
  unfold State.hornPattern
  cases h : s.steadyPattern with
  | some p => simpa using steadyPattern_ne h
  | none => cases s.snd.chirp <;> simp

/-- R123, R124: the chirp burst at the end of an event, from what the event did: `shown` names, among the level-1 notices left
in ALERT and sounding, those that the event put there. -/
theorem chirpFollows_settle (b : State) (w : Work) (shown : Pt → Prop) (hc : w.st.snd.chirp = b.snd.chirp)
    (hs : ∀ n ∈ w.st.nt.notices, n.level = 1 → n.phase = .alert → w.st.sounding n = true →
      (n.point ∈ w.alerts ++ w.chirps ↔ shown n.point)) :
    ChirpFollows b (settle b w) shown := by
  have trigger : (w.alerts ++ w.chirps).any w.st.chirpTrigger = true ↔
      ∃ n ∈ w.st.nt.notices, shown n.point ∧ n.level = 1 ∧ n.phase = .alert ∧ w.st.sounding n = true := by
    simp only [List.any_eq_true, State.chirpTrigger, Bool.and_eq_true, decide_eq_true_eq]
    constructor
    · rintro ⟨p, hp, n, hn, ⟨⟨rfl, hl⟩, ha⟩, hz⟩
      exact ⟨n, hn, (hs n hn hl ha hz).1 hp, hl, ha, hz⟩
    · rintro ⟨n, hn, hp, hl, ha, hz⟩
      exact ⟨n.point, (hs n hn hl ha hz).2 hp, n, hn, ⟨⟨rfl, hl⟩, ha⟩, hz⟩
  unfold ChirpFollows
  dsimp only
  rw [hornPattern_steady, settle_steadyPattern, settle_chirp, settle_nt, settle_sounding, ← trigger, ← hc]
  unfold State.chirpAfter
  cases w.st.steadyPattern <;> cases w.st.snd.chirp <;> cases (w.alerts ++ w.chirps).any w.st.chirpTrigger <;> simp

theorem chirpFollows_recordRun {s t : State} {shown : Pt → Prop} (r : Ran) (h : ChirpFollows s t shown) :
    ChirpFollows s (t.recordRun r) shown := h

/-! ## The window -/

@[simp] theorem settle_presented (b : State) (w : Work) : (settle b w).presented = w.st.presented := by
  rw [settle_eq]; rfl

@[simp] theorem settle_viewShape (b : State) (w : Work) : (settle b w).viewShape = w.st.viewShape := by
  rw [settle_eq]; rfl

/-- A request to the composer leaves the window. -/
theorem requestComposition_window (s : State) :
    s.requestComposition.pres.top = s.pres.top ∧ s.requestComposition.pres.anchor = s.pres.anchor ∧
      s.requestComposition.pres.scrollTimer = s.pres.scrollTimer ∧
      s.requestComposition.pres.composer ≠ .idle ∧ s.requestComposition.pres.composer ≠ .ready := by
  unfold State.requestComposition
  split <;> rename_i h <;> simp [State.withPres, h]

/-- An event that asks for nothing of its own and changes no view leaves the window. -/
theorem settle_window_still (b : State) (w : Work) (hn : w.notify = false) (hv : b.viewShape = w.st.viewShape) :
    (settle b w).pres.top = w.st.pres.top ∧ (settle b w).pres.anchor = w.st.pres.anchor ∧
      (settle b w).pres.scrollTimer = w.st.pres.scrollTimer := by
  unfold settle
  simp only [hn, hv, ne_eq, not_true_eq_false, decide_false, Bool.or_self, Bool.false_and, Bool.false_eq_true, if_false]
  split
  · obtain ⟨a, c, d, _⟩ := requestComposition_window w.st
    exact ⟨a, c, d⟩
  · exact ⟨rfl, rfl, rfl⟩

/-- An event that changes the view in RUN anchors the window and requests a composition. -/
theorem settle_window_moved (b : State) (w : Work) (hr : w.st.ctl.mode = .run) (hv : b.viewShape ≠ w.st.viewShape) :
    (settle b w).pres.top = w.st.anchoredTop w.alerts ∧
      (settle b w).pres.anchor = (w.st.anchorWindow w.alerts).pres.anchor ∧
      (settle b w).pres.scrollTimer = (w.st.anchorWindow w.alerts).pres.scrollTimer ∧
      (settle b w).pres.composer ≠ .idle ∧ (settle b w).pres.composer ≠ .ready := by
  have hd : compositionDue b (w.st.anchorWindow w.alerts) = true := by
    unfold compositionDue
    have : (w.st.anchorWindow w.alerts).viewShape = w.st.viewShape := rfl
    simp [this, hv]
  unfold settle
  simp only [hv, hr, ne_eq, not_false_eq_true, decide_true, Bool.or_true, Bool.and_self, if_true, hd]
  exact requestComposition_window (w.st.anchorWindow w.alerts)

/-- R144, step 3: the place that the notification names lies above a window top exactly if an ALERT notice of the event does. -/
theorem lowestAlertPlace_lt (s : State) (alerts : List Pt) (top : Nat) :
    (∃ p, s.lowestAlertPlace alerts = some p ∧ p < top) ↔
      ∃ i : Fin s.presented.length, i.val < top ∧ (s.presented.get i).phase = .alert ∧ (s.presented.get i).point ∈ alerts := by
  unfold State.lowestAlertPlace
  constructor
  · rintro ⟨p, hp, hlt⟩
    obtain ⟨hl, hq, _⟩ := List.findIdx?_eq_some_iff_getElem.1 hp
    simp only [Bool.and_eq_true, decide_eq_true_eq, List.contains_iff_mem] at hq
    exact ⟨⟨p, hl⟩, hlt, hq.1, hq.2⟩
  · rintro ⟨i, hlt, ha, hm⟩
    cases h : s.presented.findIdx? fun n => n.phase = .alert && alerts.contains n.point with
    | none =>
      have := List.findIdx?_eq_none_iff.1 h (s.presented.get i) (List.get_mem _ _)
      rw [List.get_eq_getElem] at ha hm
      simp [ha, hm] at this
    | some p =>
      obtain ⟨hl, _, hmin⟩ := List.findIdx?_eq_some_iff_getElem.1 h
      refine ⟨p, rfl, Nat.lt_of_le_of_lt (Nat.le_of_not_lt fun hip => ?_) hlt⟩
      have := hmin i.val hip
      rw [List.get_eq_getElem] at ha hm
      simp [ha, hm] at this

/-- R144: the window top after anchoring, from the place that it follows to. -/
theorem anchoredTop_eq (s : State) (alerts : List Pt) :
    (∀ i : Fin s.presented.length, i.val < min s.followedTop s.topLimit → (s.presented.get i).phase = .alert →
        (s.presented.get i).point ∈ alerts → s.anchoredTop alerts = 0) ∧
      ((¬∃ i : Fin s.presented.length, i.val < min s.followedTop s.topLimit ∧ (s.presented.get i).phase = .alert ∧
        (s.presented.get i).point ∈ alerts) → s.anchoredTop alerts = min s.followedTop s.topLimit) := by
  constructor
  · intro i hlt ha hm
    obtain ⟨p, hp, hpt⟩ := (lowestAlertPlace_lt s alerts _).2 ⟨i, hlt, ha, hm⟩
    simp [State.anchoredTop, hp, hpt]
  · intro h
    rw [← lowestAlertPlace_lt] at h
    unfold State.anchoredTop
    cases hp : s.lowestAlertPlace alerts with
    | none => rfl
    | some p =>
      have : ¬p < min s.followedTop s.topLimit := fun hlt => h ⟨p, hp, hlt⟩
      simp only [if_neg this]

/-- R144, step 1: an anchor that is still presented is followed to its place. -/
theorem followedTop_place (s : State) (hu : s.presented.Pairwise fun a b => a.point ≠ b.point)
    (i : Fin s.presented.length) (h : s.pres.anchor = some (s.presented.get i).point) : s.followedTop = i.val := by
  have hf : s.presented.findIdx? (fun n => n.point = (s.presented.get i).point) = some i.val := by
    rw [List.findIdx?_eq_some_iff_getElem]
    refine ⟨i.isLt, by simp, fun j hj => ?_⟩
    have := List.pairwise_iff_getElem.1 hu j i.val (by omega) i.isLt hj
    simpa using this
  unfold State.followedTop
  rw [h]
  dsimp only
  rw [hf]
  rfl

/-- R144, step 1: with the anchor gone the window top keeps its number. -/
theorem followedTop_kept (s : State) (h : ∀ n ∈ s.presented, s.pres.anchor ≠ some n.point) : s.followedTop = s.pres.top := by
  unfold State.followedTop
  cases ha : s.pres.anchor with
  | none => rfl
  | some a =>
    have hf : s.presented.findIdx? (fun n => n.point = a) = none := by
      rw [List.findIdx?_eq_none_iff]
      intro n hn
      have := h n hn
      rw [ha] at this
      simp only [ne_eq, Option.some.injEq] at this
      simpa using fun e => this e.symm
    simp [hf]

/-- R56, R144, R145: the window at the end of an event in RUN, from what the event did: `shown` names, among the presented
ALERT notices, those that the event put there. -/
theorem windowFollows_settle (b : State) (w : Work) (shown : Pt → Prop) (hr : w.st.ctl.mode = .run) (hn : w.notify = false)
    (hp : w.st.pres = b.pres) (hu : w.st.presented.Pairwise fun a b => a.point ≠ b.point)
    (hs : ∀ n ∈ w.st.presented, n.phase = .alert → (n.point ∈ w.alerts ↔ shown n.point)) :
    WindowFollows b (settle b w) shown := by
  refine ⟨fun hv => ?_, fun hv => ?_⟩
  · have hv' : b.viewShape ≠ w.st.viewShape := by rw [← settle_viewShape b w]; exact hv
    obtain ⟨ht, ha, hc, hcomp⟩ := settle_window_moved b w hr hv'
    have hk := presStep_settle b w
    have lands (f : Nat) (hf : w.st.followedTop = f) :
        ((∃ i : Fin w.st.presented.length, i.val < min f w.st.topLimit ∧ (w.st.presented.get i).phase = .alert ∧
            shown (w.st.presented.get i).point) → w.st.anchoredTop w.alerts = 0) ∧
          ((¬∃ i : Fin w.st.presented.length, i.val < min f w.st.topLimit ∧ (w.st.presented.get i).phase = .alert ∧
            shown (w.st.presented.get i).point) → w.st.anchoredTop w.alerts = min f w.st.topLimit) := by
      subst hf
      obtain ⟨h0, h1⟩ := anchoredTop_eq w.st w.alerts
      refine ⟨fun ⟨i, hi, hal, hsh⟩ => h0 i hi hal ((hs _ (List.get_mem _ _) hal).2 hsh), fun hno => h1 fun ⟨i, hi, hal, hm⟩ => ?_⟩
      exact hno ⟨i, hi, hal, (hs _ (List.get_mem _ _) hal).1 hm⟩
    unfold Anchors
    dsimp only
    rw [settle_presented, hk.lineMode, hk.scrollHold, ht, ha, hc, ← hp]
    exact ⟨fun i hi => lands i.val (followedTop_place _ hu i hi), fun hno => lands _ (followedTop_kept _ hno), rfl, rfl, hcomp⟩
  · have hv' : b.viewShape = w.st.viewShape := by rw [← settle_viewShape b w]; exact hv
    obtain ⟨h1, h2, h3⟩ := settle_window_still b w hn hv'
    rw [← hp]
    exact ⟨h1, h2, h3⟩

theorem windowFollows_recordRun {s t : State} {shown : Pt → Prop} (r : Ran) (h : WindowFollows s t shown) :
    WindowFollows s (t.recordRun r) shown := h

/-- The points of the presented notices differ where those of the live notices do (R24). -/
theorem presented_points {s : State} (h : s.TableOk) : s.presented.Pairwise fun a b => a.point ≠ b.point := by
  have hd : s.nt.notices.Pairwise fun a b => a.point ≠ b.point := h.1.imp fun h => ne_of_lt h
  have hr : s.rankList.Pairwise fun a b => a.point ≠ b.point :=
    (perm_rankList s).symm.pairwise hd fun h => h.symm
  exact hr.sublist List.filter_sublist

end Sys2Proof.Machine
end

