-- ==== Sys2Proof/Tests/Slice0.lean ====
section
/-! SUPPORT. Tests: what well-formedness refuses, the worked examples of the spec, a step of each family, and for every
statement of Certificates/Slice0/Obligations.lean with hypotheses a witness that meets them, clause by clause. -/

namespace Sys2Proof.Tests

-- Each proof by evaluation would otherwise take a thread of its own.
set_option Elab.async false

open Sys2Proof.Machine

/-! ## Small states -/

/-- A live notice of a point in a phase, as a raise of level 2 left it. -/
def note (p : Pt) (phase : Phase) : Notice :=
  { point := p, phase := phase, origin := .link, level := 2, arrival := p.val + 1, count := 1, firstOut := false,
    silenced := false, realert := none, stale := false, chattering := false, field := .none, rev := 1 }

/-- The part after reset, in RUN. -/
def idleRun : State := State.reset.withCtl { State.reset.ctl with mode := .run }

/-- In RUN with live notices, and with the points named ACTIVE. -/
def run (notices : List Notice) (active : List Pt) : State :=
  (idleRun.withNt { notices := notices, pendSet := [], arrival := 200, rev := 1 }).withPt
    { idleRun.pt with cond := active.foldl (fun v p => v.set p.val true) idleRun.pt.cond }

/-- A state with another record of one point. -/
def point (u : UserPt) (r : PointRec) (s : State) : State := s.putPoint u r

/-- A state with another record of one group. -/
def group (g : GroupNo) (r : GroupRec) (s : State) : State :=
  s.withPt { s.pt with groups := s.pt.groups.set g.val r }

/-- A state with another record of one line. -/
def line (l : LineNo) (r : LineRec) (s : State) : State := s.withLq { s.lq with lines := s.lq.lines.set l.val r }

/-- A state with another record of one key. -/
def key (k : KeyNo) (r : KeyRec) (s : State) : State := s.withKp { s.kp with keys := s.kp.keys.set k.val r }

/-- In RUN with 48 user notices in FLEETING, of points 0 to 47, point 100 pending, and PANEL OVERFLOW standing. -/
def full : State :=
  let s := run (((List.finRange 48).map fun i => note (Fin.castLE (by decide) i) .fleeting) ++
    [{ note panelOverflow .alert with origin := .system, level := 3 }]) [panelOverflow]
  s.withNt { s.nt with pendSet := [100] }

/-- A line bound to a point, with a chatter limit, in a state of its qualification. -/
def bound (u : Option UserPt) (state : LineState) : LineRec :=
  { LineRec.default with bound := u, state := state, sample := decide (state = .rising ∨ state = .active), chatterLimit := 3 }

/-- A countdown that has reached zero. -/
def ranOut : Countdown := { left := 1, due := true }

/-- In a transaction that carries a reply or none. -/
def clocking (reply : Option ReplyFrame) (s : State) : State :=
  s.withLink { s.link with csnLow := true, trans := some { status := s.statusByte, reply := reply } }

/-- The answer of a command that completes. -/
def after (c : Instr) (s : State) : State :=
  match exec c s with
  | .next t => t
  | .fault _ => s
  | .refused _ => s

/-! ## Well-formedness: what it refuses and what it takes -/

theorem test_wellFormed_refuses_a_payload_of_41 : (Instr.setMessage (List.replicate 41 0x41)).wellFormed = false := by
  decide +kernel

theorem test_wellFormed_refuses_a_known_kind_as_unknown : (Instr.unknownKind 0x20 []).wellFormed = false := by decide

theorem test_wellFormed_refuses_a_poll_and_soft_reset_as_requests :
    (Instr.unknownKind 0x00 []).wellFormed = false ∧ (Instr.unknownKind 0x7F []).wellFormed = false := by decide

theorem test_wellFormed_refuses_an_unknown_kind_with_41_bytes :
    (Instr.unknownKind 0x55 (List.replicate 41 0)).wellFormed = false := by decide +kernel

theorem test_wellFormed_takes_the_bounds :
    (Instr.writePoint (List.replicate 40 0)).wellFormed = true ∧ (Instr.unknownKind 0x55 []).wellFormed = true ∧
      (Instr.transactionEnd (List.replicate 7 true) []).wellFormed = true ∧ Instr.secondsTick.wellFormed = true := by decide +kernel

theorem test_no_word_spells_a_command : decodeTableWord 8 0x12 = none ∧ decodeTableWord 0 0 = none := by decide

theorem test_withFetchWord_leaves_the_queue : State.reset.withFetchWord 8 0x12 = State.reset := by decide +kernel

/-! ## Worked examples of the spec -/

theorem test_crc_of_the_status_request :
    crc8 [0x02] = 0x1C ∧ crc8 [0x02, 0x15] = 0x78 ∧ crc8 [0x02, 0x15, 0x00] = 0x6C := by decide +kernel

theorem test_crc_over_a_whole_frame_is_zero : crc8 (requestFrame 0x02 0x15 []) = 0x00 := by decide +kernel

theorem test_status_byte_after_reset : State.reset.statusByte = 0x05 := by decide

theorem test_status_byte_with_a_reply_waiting :
    (State.reset.withLink { State.reset.link with
      state := .replyReady, outcome := .taken, fresh := false, flags := 0x40, enables := 0x40 }).statusByte = 0x8B := by
  decide

theorem test_rank_order_takes_level_then_bucket_then_arrival :
    (run [{ note 1 .standing with level := 4 }, note 2 .fleeting, note 3 .alert,
          { note 4 .alert with arrival := 2 }] []).rankList.map (·.point) = [1, 4, 3, 2] := by
  decide +kernel

theorem test_config_screen_after_reset :
    (State.reset.pres.front.cells.get 0).toList =
      [0x4F, 0x55, 0x54, 0x20, 0x4F, 0x46, 0x20, 0x53, 0x45, 0x52, 0x56, 0x49, 0x43, 0x45, 0x20, 0x20, 0x20, 0x20, 0x20,
       0x20] := by
  decide +kernel

theorem test_bytes_go_most_significant_bit_first :
    wholeBytes [false, true, true, false, true, false, false, true, true, false] = [0x69] := by
  decide

theorem test_miso_presents_the_status_byte :
    let t := after .csnFall idleRun
    (List.range 9).map t.misoPin =
      [some false, some false, some false, some false, some false, some true, some false, some true, some false] ∧
    idleRun.misoPin 0 = none ∧ (after .resetnFall t).misoPin 0 = none := by
  decide +kernel

/-! ## A step on a small state, family by family -/

theorem test_step_takes_the_front :
    step (State.reset.withPending [.secondsTick, .stepBoundary]) =
      exec .secondsTick (State.reset.withPending [.stepBoundary]) := rfl

theorem test_identify_answers_the_codes :
    (after (.identify []) State.reset).link.ran =
      some { kind := 0x01, request := [], result := .ok, reply := [0x3A, 0x71, 0x0A, 0x48, 0x01, 0x00] } := by
  decide +kernel

theorem test_status_counts_an_alert :
    ((after (.status []) (run [note 5 .alert] [5])).link.ran.map (·.reply)) =
      some [0x01, 0x01, 0x00, 0x00, 0x00, 0x01, 0x03, 0x00, 0x00] := by
  decide +kernel

theorem test_write_point_stores_the_record :
    (after (.writePoint [0x07, 1, 2, 15, 47, 0xFF, 240, 2, 0x41, 0x42]) State.reset).pointRec 7 =
      { label := [0x41, 0x42], cls := .caution, seq := .ringback, group := 15, tile := some 47, parent := none,
        shelveLimit := 240 } := by
  decide +kernel

theorem test_raise_creates_and_marks_first_out :
    let t := after (.raise [0x05, 0x01, 0xFF, 0xFE]) (group 0 { GroupRec.default with firstOutEnable := true } idleRun)
    t.active 5 = true ∧ (t.groupRec 0).marker = some 5 ∧ t.flagged .newAlert = true ∧
      t.notice? 5 = some { note 5 .alert with arrival := 1, firstOut := true, field := .value 0xFFFE } := by
  decide +kernel

/-- A change that brings the record's revision back to its old number still requests a composition (R152, R36). -/
theorem test_a_change_is_seen_where_the_revision_wraps :
    let s := run [note 5 .alert] [5]
    let t := after (.raise [0x05, 0x01, 0x00, 0x07]) (s.withNt { s.nt with rev := 0 })
    s.pres.composer = .idle ∧ (t.notice? 5).map (·.rev) = some (note 5 .alert).rev ∧ t.pres.composer ≠ .idle := by
  decide +kernel

theorem test_clear_of_an_alert_leaves_fleeting :
    ((after (.clear [0x05]) (run [note 5 .alert] [5])).notice? 5).map (·.phase) = some .fleeting := by
  decide +kernel

theorem test_acknowledge_of_an_alert_leaves_standing :
    ((after (.acknowledge [0x00, 0x05]) (run [note 5 .alert] [5])).notice? 5).map (·.phase) = some .standing := by
  decide +kernel

theorem test_reset_retires_a_manual_return :
    let t := after (.reset [0x00, 0x05]) (point 5 { PointRec.default with seq := .manual } (run [note 5 .returned] []))
    t.notice? 5 = none ∧ t.flagged .retired = true := by
  decide +kernel

theorem test_silence_starts_the_realert_countdown :
    let s := run [note 5 .alert] [5]
    ((after (.silence []) (s.withSnd { s.snd with realertMin := 60 })).notice? 5).map (fun n => (n.silenced, n.realert)) =
      some (true, some { left := 3600, due := false }) := by
  decide +kernel

theorem test_retire_of_a_full_table_admits_the_pending_point :
    let t := after (.retire [0x00]) full
    t.nt.pendSet = [] ∧ (t.notice? 100).map (·.phase) = some .fleeting ∧ t.active panelOverflow = false := by
  decide +kernel

theorem test_shelve_withholds_the_notice :
    let t := after (.shelve [0x05, 0x01]) (point 5 { PointRec.default with shelveLimit := 1 } (run [note 5 .alert] [5]))
    t.shelfEntry? 5 = some { point := 5, time := { left := 60, due := false } } ∧ t.presented = [] := by
  decide +kernel

theorem test_group_disable_retires_its_notices :
    let t := after (.writeGroup [0x00, 0x02, 0x00, 0x00]) (run [note 5 .alert] [5])
    t.nt.notices = [] ∧ t.active 5 = false ∧ t.flagged .retired = true := by
  decide +kernel

theorem test_start_raises_an_active_line :
    let s := line 3 (bound (some 9) .active) State.reset
    let t := after (.start []) (s.withPt { s.pt with cond := s.pt.cond.set 9 true })
    t.ctl.mode = .run ∧ (t.notice? 9).map (fun n => (n.phase, n.origin)) = some (.alert, .line 3) := by
  decide +kernel

theorem test_stop_empties_the_tables :
    let t := after (.stop []) (run [note 5 .alert] [5])
    t.ctl.mode = .config ∧ t.nt.notices = [] ∧ t.nt.rev = 2 ∧ t.active 5 = false := by
  decide +kernel

theorem test_lines_qualify_and_raise :
    let s := after (.lineRawChange 3 .low) (line 3 (bound (some 9) .quiet) idleRun)
    let t := after (.lineQualifyExpiry 3) s
    (s.lineRec 3).state = .rising ∧ (s.lineRec 3).qualify = 5 ∧ (t.lineRec 3).state = .active ∧ (t.lineRec 3).count = 1 ∧
      t.active 9 = true ∧ (t.notice? 9).map (·.phase) = some .alert := by
  decide +kernel

theorem test_ack_key_acknowledges_and_sets_operator :
    let t := after (.keyDebounceExpiry 0) (key 0 { sample := true, state := .making, repeatTimer := none }
      (run [note 5 .alert] [5]))
    (t.notice? 5).map (·.phase) = some .standing ∧ t.flagged .operator = true := by
  decide +kernel

theorem test_step_boundary_sounds_a_beat :
    let s := run [note 5 .alert] [5]
    let t := after .stepBoundary (s.withPres { s.pres with step := 7 })
    s.hornPattern = .beat ∧ t.pres.step = 0 ∧ t.snd.horn = true ∧ t.snd.oddCycle = true := by
  decide +kernel

theorem test_a_refresh_reaches_the_lamps :
    let s := point 5 { PointRec.default with tile := some 47 } (run [note 5 .standing] [5])
    let t := after .refreshLatch (after .stepBoundary s)
    t.pres.lamps.get 47 = true ∧ t.pres.lamps.get 46 = false ∧ t.pres.refresh = none := by
  decide +kernel

theorem test_a_refresh_sends_tile_47_first :
    let s := point 5 { PointRec.default with tile := some 47 } (run [note 5 .standing] [5])
    let t := after .stepBoundary s
    t.chainLine .data (.shift 0) = true ∧ t.chainLine .data (.shift 1) = false ∧
      (after .resetnFall t).chainLine .data (.shift 0) = false ∧ (after .resetnFall t).chainLine .clock .other = false := by
  decide +kernel

theorem test_soft_reset_frame_resets :
    let t := after (.transactionEnd (bitsOf (requestFrame 0x7F 0x33 [0x01])) []) (clocking none idleRun)
    t.inReset = true ∧ t.ctl.mode = .config ∧ (after .resetExit t).statusByte = 0x05 := by
  decide +kernel

theorem test_a_request_is_taken_run_and_answered :
    let s := after (.transactionEnd (bitsOf (requestFrame 0x01 0x33 []) ++ [true]) [true]) (clocking none idleRun)
    let t := after .replyPlacement (after (.identify []) s)
    s.link.state = .working ∧ t.link.state = .replyReady ∧ t.flagged .reply = true ∧
      t.link.slot = some { result := .ok, tag := 0x33, payload := [0x3A, 0x71, 0x0A, 0x48, 0x01, 0x01] } := by
  decide +kernel

/-- The part after a SOFT_RESET, with CSN fallen inside its hold. -/
def muted : State :=
  after .csnFall (after (.transactionEnd (bitsOf (requestFrame 0x7F 0x33 [])) []) (clocking none idleRun))

theorem test_miso_stays_at_high_impedance_through_reset_exit :
    let t := after .resetExit muted
    t.inService = true ∧ t.link.csnLow = true ∧ (List.range 9).map t.misoPin = List.replicate 9 none ∧
      (after .csnFall (after (.transactionEnd [] []) t)).misoPin 5 = some true := by
  decide +kernel

theorem test_oscillator_stops_the_ticks :
    after .secondsTick (after .oscillatorStop idleRun) = after .oscillatorStop idleRun := by
  decide +kernel

/-! ## Witnesses: states and operands that meet the hypotheses of the statements, clause by clause

Each theorem is named after the statement whose hypotheses it meets together. -/

/-- A full answer in the reply slot. -/
def answered : ReplyFrame := { result := .ok, tag := 0x33, payload := [] }

/-- A queue of one command in front of a state. -/
def queued (c : Instr) (s : State) : State := s.withPending [c]

theorem test_witness_StepKeepsTheTable : full.TableOk ∧ ∃ t, step (queued (.retire [0x00]) full) = .next t := by
  refine ⟨?_, _, rfl⟩
  decide +kernel

theorem test_witness_StepKeepsConfigEmpty :
    (State.reset.ConfigEmpty ∧ State.reset.ctl.mode = .config) ∧ ∃ t, step (queued (.start []) State.reset) = .next t := by
  refine ⟨?_, _, rfl⟩
  decide +kernel

theorem test_witness_StepKeepsConditionConsistency :
    (let s := run [note 5 .alert] [5]
     s.TableOk ∧ s.ConfigEmpty ∧ s.ServiceOk) ∧ ∃ t, step (queued (.clear [0x05]) (run [note 5 .alert] [5])) = .next t := by
  refine ⟨?_, _, rfl⟩
  decide +kernel

theorem test_witness_StepKeepsTheLinkState :
    (clocking none State.reset).LinkOk ∧ ∃ t, step (queued (.transactionEnd (List.replicate 8 false) []) (clocking none State.reset)) = .next t := by
  refine ⟨⟨by decide, by decide, ?_, by decide⟩, _, rfl⟩
  intro t ht hr
  cases ht
  cases hr

theorem test_witness_StepKeepsTheWindowTop :
    (let s := run [note 1 .alert, note 2 .alert, note 3 .alert, note 4 .alert] [1, 2, 3, 4]
     (s.withPres { s.pres with top := 1 }).ConfigEmpty ∧ (s.withPres { s.pres with top := 1 }).WindowOk) ∧
    ∃ t, step (queued .secondsTick State.reset) = .next t := by
  refine ⟨?_, _, rfl⟩
  decide +kernel

theorem test_witness_StepKeepsShelfChirpAndParents :
    (idleRun.withShelf [{ point := 1, time := ranOut }, { point := 2, time := { left := 14400, due := false } }]).ShelfOk ∧
    (idleRun.withSnd { idleRun.snd with chirp := some 3 }).ChirpOk ∧
    (point 6 { PointRec.default with parent := some 5 } idleRun).ParentsOk ∧
    ∃ t, step (queued .secondsTick State.reset) = .next t := by
  refine ⟨?_, ?_, ?_, _, rfl⟩ <;> decide +kernel

theorem test_witness_SoftResetFrameResetsThePart :
    let s := clocking none idleRun
    s.inService = true ∧ s.link.csnLow = true ∧ s.link.trans = some { status := 0x05, reply := none } ∧
      (List.replicate 40 (0xFF : Byte)).length ≤ 40 ∧
      wholeBytes (bitsOf (requestFrame 0x7F 0x33 (List.replicate 40 0xFF)) ++ [true]) =
        requestFrame 0x7F 0x33 (List.replicate 40 0xFF) ++ [] := by
  decide +kernel

theorem test_witness_ResetExitEndsTheHold :
    let low := after .resetnFall idleRun
    let high := after .resetnRise low
    low.ctl.resetnLow = true ∧ high.inReset = true ∧ high.ctl.supplyOk = true ∧ high.ctl.resetnLow = false ∧
      high.ctl.oscRunning = true ∧ (after .supplyFall idleRun).ctl.supplyOk = false := by
  decide +kernel

/-- Of the clause on a transaction whose CSN fell inside the hold of a SOFT_RESET, of ResetExitEndsTheHold and
CsnFallFixesTheMisoBytes. -/
theorem test_witness_ResetExitEndsTheHold_muted :
    muted.inReset = true ∧ muted.ctl.supplyOk = true ∧ muted.ctl.resetnLow = false ∧ muted.ctl.oscRunning = true ∧
      muted.link.muted = true ∧ muted.link.trans = none := by
  decide +kernel

theorem test_witness_EverythingStandsWithTheOscillator :
    State.reset.ctl.powerHold = false ∧ State.reset.ctl.pinHold = false ∧
      (after .oscillatorStop idleRun).ctl.oscRunning = false ∧ standsStill (.raise [0x05, 0x00]) = true := by
  decide +kernel

theorem test_witness_LinkStatusByteReportsTheLink :
    let s := State.reset.withLink { State.reset.link with
      state := .replyReady, outcome := .taken, fresh := false, flags := 0x40, enables := 0x40 }
    s.link.state = .replyReady ∧ s.link.outcome = .taken ∧ s.link.fresh = false ∧ s.attn = true ∧ s.inService = true ∧
      s.link.csnLow = false := by
  decide +kernel

theorem test_witness_CsnFallFixesTheMisoBytes :
    (idleRun.link.csnLow = false ∧ idleRun.inService = true) ∧
      ((after .powerOn idleRun).link.csnLow = false ∧ (after .powerOn idleRun).inService = false) ∧
      (({ status := 0x8B, reply := some answered } : Transaction).reply = some answered) ∧
      ({ status := 0x05, reply := none } : Transaction).reply = none := by
  decide +kernel

theorem test_witness_FrameIsJudgedInOrder :
    let n := fun mosi : List Byte => (mosi.getD 2 0).toNat
    let crc := fun mosi : List Byte => crc8 (mosi.take (4 + n mosi))
    let whole := requestFrame 0x10 0x33 (List.replicate 40 0)
    ([0x01, 0x33, 0x00] : List Byte).length < 4 ∧
    (4 ≤ ([0x01, 0x33, 41, 0x00] : List Byte).length ∧ 40 < n [0x01, 0x33, 41, 0x00]) ∧
    (4 ≤ (whole.take 43).length ∧ n (whole.take 43) ≤ 40 ∧ (whole.take 43).length < 4 + n (whole.take 43)) ∧
    (n [0x01, 0x33, 0x00, 0x00] ≤ 40 ∧ 4 + n [0x01, 0x33, 0x00, 0x00] ≤ 4 ∧ crc [0x01, 0x33, 0x00, 0x00] ≠ 0x00) ∧
    (n whole = 40 ∧ 4 + n whole ≤ whole.length ∧ crc whole = 0x00) ∧
    (crc (requestFrame 0x7F 0x33 []) = 0x00 ∧ 4 + n (requestFrame 0x7F 0x33 []) ≤ (requestFrame 0x7F 0x33 []).length) := by
  decide +kernel

theorem test_witness_TransactionEndTakesItsJudgement :
    let s := clocking none idleRun
    let w := clocking (some answered) (s.withLink { s.link with state := .replyReady, slot := some answered })
    let busy := s.withLink { s.link with state := .working }
    (s.link.csnLow = true ∧ s.inService = true ∧ s.link.trans = some { status := 0x05, reply := none }) ∧
    ((after .powerOn s).link.csnLow = true ∧ (after .powerOn s).link.trans = none) ∧
    (w.link.trans.map (fun tr => (tr.consumes 4, tr.consumes 5))) = some (false, true) ∧
    (s.link.judge [0x00] = .poll) ∧ (s.link.judge [0x01] = .badFrame) ∧ (s.link.judge [0x01, 0x33, 0x00, 0x00] = .badCrc) ∧
    (busy.link.judge (requestFrame 0x01 0x33 []) = .refusedBusy) ∧
    (w.link.judge (requestFrame 0x01 0x33 []) = .refusedUnread) ∧
    (s.link.judge (requestFrame 0x01 0x33 []) = .taken { kind := 0x01, tag := 0x33, payload := [] }) ∧
    wholeBytes (bitsOf (requestFrame 0x01 0x33 [])) = requestFrame 0x01 0x33 [] := by
  decide +kernel

/-- Supervision EXPIRED, HOST SILENT in a phase. -/
def silent (phase : Phase) : State :=
  let s := run [{ note 5 .alert with stale := true }, { note hostSilent phase with origin := .system, level := 3 }] [5, hostSilent]
  clocking none (s.withLink { s.link with sup := .expired, supSetting := 5 })

theorem test_witness_RestartingTransactionHearsTheHost_expired :
    ((silent .alert).TableOk ∧ (silent .alert).inService = true ∧ (silent .alert).link.csnLow = true ∧
      (silent .alert).ctl.mode = .run ∧ (silent .alert).active hostSilent = true ∧
      ((silent .alert).notice? hostSilent).map (·.phase) = some .alert ∧ (silent .alert).link.judge [0x00] = .poll) ∧
    ((silent .standing).TableOk ∧ ((silent .standing).notice? hostSilent).map (·.phase) = some .standing) := by
  decide +kernel

theorem test_witness_RestartingTransactionHearsTheHost_running_and_off :
    let r := clocking none (idleRun.withLink { idleRun.link with sup := .running, supSetting := 255, supTimer := some ranOut })
    (r.TableOk ∧ r.inService = true ∧ r.link.csnLow = true ∧ r.link.trans.isSome = true ∧ r.link.sup = .running ∧
      r.link.judge [0x00] = .poll ∧ r.link.judge [0x01] = .badFrame) ∧
    ((clocking none idleRun).TableOk ∧ (clocking none idleRun).link.sup = .off) := by
  decide +kernel

theorem test_witness_PlacementFillsTheReplySlot :
    let x : Taken := { kind := 0x01, tag := 0x33, payload := [] }
    let r : Ran := { kind := 0x01, request := [], result := .ok, reply := [0x3A] }
    let s := idleRun.withLink { idleRun.link with state := .working, taken := some x, ran := some r }
    s.inService = true ∧ s.link.state = .working ∧ s.link.taken = some x ∧ s.link.ran = some r ∧ r.kind = x.kind ∧
      r.request = x.payload := by
  decide +kernel

theorem test_witness_SupervisionExpiryRaisesHostSilent :
    let r := run [note 5 .alert] [5]
    let s := r.withLink { r.link with sup := .running, supSetting := 5, supTimer := some ranOut }
    s.TableOk ∧ s.ServiceOk ∧ s.inModeNow .run ∧ s.link.sup = .running ∧ s.link.supTimer = some ranOut ∧ ranOut.due = true ∧
      s.active hostSilent = false ∧ (s.notice? 5).map (·.origin) = some .link := by
  decide +kernel

theorem test_witness_RequestStagesRefuseInOrder :
    (kindOf (.shelve [0x05]) = some 0x26 ∧ (Instr.shelve [0x05]).payload? = some [0x05] ∧ lengthFits (.shelve [0x05]) = false) ∧
    (lengthFits (.shelve [0x05, 240]) = true ∧ refusingMode (.shelve [0x05, 240]) = some State.reset.ctl.mode) ∧
    (refusingMode (.shelve [0x81, 241]) ≠ some idleRun.ctl.mode ∧ argsFit (.shelve [0x81, 241]) = false ∧
      argsFit (.shelve [0x82, 240]) = false ∧ argsFit (.shelve [0x81, 0]) = false ∧ argsFit (.shelve [0x81, 1]) = true) ∧
    (lengthFits (.writePoint [1, 0, 0, 0, 0xFF, 0xFF, 0, 17]) = false ∧
      lengthFits (.writePoint ([1, 0, 0, 0, 0xFF, 0xFF, 0, 17] ++ List.replicate 17 0x41)) = true ∧
      argsFit (.writePoint ([1, 0, 0, 0, 0xFF, 0xFF, 0, 17] ++ List.replicate 17 0x41)) = false ∧
      argsFit (.writePoint ([1, 0, 0, 0, 0xFF, 0xFF, 0, 16] ++ List.replicate 16 0x7E)) = true) ∧
    ((0x55 : Byte) ≠ 0x00 ∧ (0x55 : Byte) ≠ 0x7F ∧ (0x55 : Byte) ∉ knownKinds) := by
  decide +kernel

/-- Of the report statements and of TableReportsReadTheTable. -/
theorem test_witness_reports_find_and_miss_a_notice :
    idleRun.inService = true ∧ (run [note 129 .alert] []).notice? 129 = some (note 129 .alert) ∧ idleRun.notice? 0 = none := by
  decide +kernel

/-- Of the notice flags: all eight of a notice, each at 1 and each at 0. -/
theorem test_witness_TableReportsReadTheTable_flags :
    let n : Notice := { note 9 .alert with
      firstOut := true, silenced := true, stale := true, chattering := true, realert := some ranOut }
    let s := (point 9 { PointRec.default with parent := some 8 } (run [note 7 .alert, n] [7, 8, 9])).withShelf
      [{ point := 9, time := ranOut }]
    s.notice? 9 = some n ∧ s.noticeFlags n = 0x7F ∧ s.noticeFlags (note 7 .alert) = 0x80 ∧ s.active (UserPt.pt 8) = true := by
  decide +kernel

/-- Of EventRequestsActOnTheFlags, OutputLinesFollowTheirRecords and KeyLockMessageAndLampTest. -/
theorem test_witness_settings_in_either_mode :
    (State.reset.ChirpOk ∧ State.reset.inService = true ∧ idleRun.ChirpOk ∧ idleRun.inService = true) ∧
    (OutMode.unack.paramOk 1 = true ∧ OutMode.active.paramOk 4 = true ∧ OutMode.group.paramOk 15 = true ∧
      OutMode.off.paramOk 0 = true) ∧
    idleRun.inReset = false ∧ idleRun.kp.testRunning = false ∧ (after (.lampTest []) idleRun).kp.testRunning = true ∧
    (List.replicate 20 (0x7E : Byte)).length ≤ 20 ∧ (List.replicate 20 (0x7E : Byte)).all printable = true ∧
    idleRun.pres.composer = .idle ∧ (after (.setMessage [0x20]) idleRun).pres.composer ≠ .idle ∧
    (after (.setMessage [0x20]) idleRun).pres.composer ≠ .ready := by
  decide +kernel

theorem test_witness_WritePointInConfigReplacesTheRecord :
    let r : PointRec :=
      { PointRec.default with label := List.replicate 16 0x7E, group := 15, tile := some 47, parent := some 127, shelveLimit := 240 }
    State.reset.ConfigEmpty ∧ State.reset.ChirpOk ∧ State.reset.inModeNow .config ∧ r.label.length ≤ 16 ∧
      r.label.all printable = true ∧ r.shelveLimit ≤ 240 := by
  decide +kernel

theorem test_witness_WritePointInRunIsChecked :
    let shelved := idleRun.withShelf [{ point := 5, time := ranOut }]
    let child := point 6 { PointRec.default with parent := some 5 } idleRun
    ((run [note 5 .alert] [5]).inModeNow .run ∧ (run [note 5 .alert] [5]).notice? (UserPt.pt 5) ≠ none) ∧
    (100 ∈ full.nt.pendSet ∧ full.notice? (UserPt.pt 100) = none) ∧ shelved.shelfEntry? (UserPt.pt 5) ≠ none ∧
    (child.inModeNow .run ∧ (child.pointRec 6).parent = some 5 ∧ (6 : UserPt) ≠ 5 ∧ child.notice? (UserPt.pt 5) = none) ∧
    (idleRun.notice? (UserPt.pt 127) = none ∧ 127 ∉ idleRun.nt.pendSet ∧ idleRun.shelfEntry? (UserPt.pt 127) = none) := by
  decide +kernel

/-- Of the release clauses: an ACTIVE link-sourced parent without a notice moves into a disabled group; a silenced, a shelved and
a standing child. -/
theorem test_witness_WritePointInRunIsChecked_children :
    let off := group 5 { GroupRec.default with enabled := false }
    let par := { PointRec.default with parent := some 5 }
    let s := (off (point 6 par (point 7 par (point 8 par
      (run [{ note 6 .alert with silenced := true }, note 7 .alert, note 8 .standing] [5, 6, 7, 8]))))).withShelf
        [{ point := 7, time := { left := 60, due := false } }]
    let r := { PointRec.default with group := 5 }
    let t := after (.writePoint (pointPayload 5 r)) s
    (s.inModeNow .run ∧ s.TableOk ∧ s.ParentsOk ∧ s.notice? (UserPt.pt 5) = none ∧ s.shelfEntry? (UserPt.pt 5) = none) ∧
    (s.linkSourced 5 = true ∧ (s.groupRec r.group).enabled = false ∧ s.active (UserPt.pt 5) = true) ∧
    (t.active (UserPt.pt 5) = false ∧ t.flagged .newAlert = true ∧ (t.notice? 6).map (·.silenced) = some false) := by
  decide +kernel

theorem test_witness_WriteGroupStoresAndRelevels :
    let s := run [note 5 .alert] [5]
    s.TableOk ∧ s.ChirpOk ∧ s.inService = true ∧ s.ctl.mode = .run ∧ (s.groupRec 0).enabled = true ∧ (s.groupRec 0).level ≠ 1 ∧
      (s.groupRec 0).level ≠ 4 ∧ s.groupOf 5 = some 0 ∧ State.reset.TableOk ∧ State.reset.ctl.mode = .config := by
  decide +kernel

theorem test_witness_GroupDisableEmptiesTheGroup :
    let s := run [note 5 .alert] [5]
    s.TableOk ∧ s.ServiceOk ∧ s.inModeNow .run ∧ (s.groupRec 0).enabled = true ∧
      (∃ n ∈ s.nt.notices, s.groupOf n.point = some 0) := by
  decide +kernel

/-- Of the children in another group: a link-sourced ACTIVE parent goes CLEAR with its group, and its child is released. -/
theorem test_witness_GroupDisableEmptiesTheGroup_children :
    let s := point 9 { PointRec.default with parent := some 8, group := 1 } (run [note 8 .alert, note 9 .fleeting] [8])
    let t := after (.writeGroup [0x00, 0x02, 0x00, 0x00]) s
    (s.TableOk ∧ s.ServiceOk ∧ s.inModeNow .run ∧ (s.pointRec 8).group = 0 ∧ s.linkSourced 8 = true ∧
      s.active (UserPt.pt 8) = true ∧ (s.pointRec 9).parent = some 8 ∧ (s.pointRec 9).group ≠ 0) ∧
    s.suppressed (UserPt.pt 9) = true ∧ t.suppressed (UserPt.pt 9) = false ∧ t.flagged .newAlert = true := by
  decide +kernel

theorem test_witness_GroupReEnableRaisesTheGroup :
    let s := group 0 { GroupRec.default with enabled := false } (line 3 (bound (some 9) .active) (run [] [9]))
    s.TableOk ∧ s.ServiceOk ∧ s.inModeNow .run ∧ (s.groupRec 0).enabled = false ∧ (s.pointRec 9).group = 0 ∧
      s.linkSourced 9 = false ∧ s.active (UserPt.pt 9) = true ∧ s.linkSourced 10 = true := by
  decide +kernel

theorem test_witness_WriteLineRebindsTheLine :
    let s := line 4 (bound (some 9) .active) (line 3 (bound (some 8) .rising) State.reset)
    let held := line 3 { bound (some 8) .falling with hold := .chatter, count := 3, timer := some ranOut } State.reset
    (s.ConfigEmpty ∧ s.ChirpOk ∧ s.inModeNow .config ∧ (s.lineRec 4).bound = some 9 ∧ (s.lineRec 3).bound = some 8) ∧
    ((s.lineRec 3).sample = true ∧ (s.lineRec 3).state = .rising) ∧ ((s.lineRec 4).sample = true ∧ (s.lineRec 4).state = .active) ∧
    ((s.lineRec 5).sample = false ∧ (s.lineRec 5).state = .quiet ∧ (s.lineRec 5).bound = none) ∧
    ((held.lineRec 3).sample = false ∧ (held.lineRec 3).state = .falling ∧ (held.lineRec 3).chatterLimit ≠ 0 ∧
      (held.lineRec 3).held ≠ ({ held.lineRec 3 with hold := .none, state := .quiet } : LineRec).held) ∧
    (∀ l : LineNo, l ≠ 4 → (s.lineRec l).bound ≠ some 9) := by
  decide +kernel

theorem test_witness_WritePanelStoresTheSettings :
    let a : PanelSettings := ⟨.twoLine, .rotated, 5, 60, 255, 120, 250⟩
    let b : PanelSettings := ⟨.fourLine, .normal, 1, 0, 0, 5, 10⟩
    (idleRun.inService = true ∧ idleRun.ctl.mode = .run ∧ idleRun.pres.lineMode ≠ a.lineMode) ∧
    (State.reset.ctl.mode = .config ∧ State.reset.pres.lineMode = b.lineMode) ∧
    (1 ≤ a.floor ∧ a.floor ≤ 5 ∧ a.realertMin ≤ 60 ∧ a.supervision ≤ 255 ∧ 5 ≤ a.scrollHold ∧ a.scrollHold ≤ 120 ∧
      10 ≤ a.window ∧ a.window ≤ 250) ∧
    (1 ≤ b.floor ∧ b.floor ≤ 5 ∧ 5 ≤ b.scrollHold ∧ b.scrollHold ≤ 120 ∧ 10 ≤ b.window ∧ b.window ≤ 250) ∧
    idleRun.link.supSetting ≠ a.supervision ∧ idleRun.snd.floor ≠ a.floor := by
  decide +kernel

/-- Of the burst and the composer clauses: a floor that stands, one that falls to 1 with the chirp in force, and neither line mode
nor orientation changed. -/
theorem test_witness_WritePanelStoresTheSettings_burst :
    let s := idleRun.withSnd { idleRun.snd with chirp := some 1 }
    let raised := s.withSnd { s.snd with floor := 5 }
    let a : PanelSettings := ⟨.fourLine, .normal, 1, 0, 0, 30, 60⟩
    (s.ChirpOk ∧ s.inService = true ∧ s.snd.floor = a.floor ∧ s.pres.lineMode = a.lineMode ∧ s.pres.orient = a.orient) ∧
    (raised.inService = true ∧ raised.snd.floor ≠ a.floor ∧ (after (.writePanel a.payload) raised).hornPattern = .chirp ∧
      (after (.writePanel a.payload) raised).snd.chirp = some 1) := by
  decide +kernel

theorem test_witness_RaiseIsCheckedInOrder :
    idleRun.inModeNow .run ∧ parseRaise [0x80, 0x00] = none ∧ parseRaise [0x05, 0x02, 0x1F] = none ∧
    ((NoticeField.text (List.replicate 6 0x20)).ok = true ∧ (line 3 (bound (some 9) .quiet) idleRun).bindingLine 9 ≠ none) ∧
    ((group 0 { GroupRec.default with enabled := false } idleRun).groupRec 0).enabled = false ∧
    (full.inModeNow .run ∧ full.bindingLine 100 = none ∧ (full.groupRec (full.pointRec 100).group).enabled = true ∧
      full.notice? (UserPt.pt 100) = none ∧ 48 ≤ full.userCount) := by
  decide +kernel

theorem test_witness_RaiseCreatesTheNotice :
    let s := group 0 { GroupRec.default with firstOutEnable := true } idleRun
    let last := idleRun.withNt { idleRun.nt with notices := [note 3 .standing], arrival := 65535 }
    (s.ParentsOk ∧ s.inModeNow .run ∧ (NoticeField.value 0x8000).ok = true ∧ s.bindingLine 127 = none ∧
      (s.groupRec (s.pointRec 127).group).enabled = true ∧ s.notice? (UserPt.pt 127) = none ∧ s.userCount < 48 ∧
      s.nt.arrival < 65535 ∧ (s.pointRec 127).cls ≠ .indication ∧ (s.groupRec 0).firstOutEnable = true ∧
      (s.groupRec 0).marker = none ∧ s.suppressed (UserPt.pt 127) = false) ∧
    (last.ParentsOk ∧ last.inModeNow .run ∧ last.notice? (UserPt.pt 0) = none ∧ last.nt.arrival = 65535 ∧
      (last.groupRec 0).firstOutEnable = false ∧ last.notice? 3 = some (note 3 .standing)) ∧
    ((point 5 { PointRec.default with cls := .indication } idleRun).pointRec 5).cls = .indication := by
  decide +kernel

theorem test_witness_RaiseRefreshesOrRaisesAgain :
    let s := run [note 5 .alert, note 6 .standing, { note 7 .fleeting with count := 255 }, note 8 .returned] [5, 6]
    s.ServiceOk ∧ s.inModeNow .run ∧ (NoticeField.value 0).ok = true ∧ s.bindingLine 5 = none ∧
      (s.groupRec (s.pointRec 5).group).enabled = true ∧ s.notice? (UserPt.pt 5) = some (note 5 .alert) ∧
      s.notice? (UserPt.pt 6) = some (note 6 .standing) ∧
      s.notice? (UserPt.pt 7) = some { note 7 .fleeting with count := 255 } ∧
      s.notice? (UserPt.pt 8) = some (note 8 .returned) ∧ (note 5 .alert).field ≠ .value 0 ∧ s.nt.arrival < 65535 := by
  decide +kernel

/-- Of the first-out clauses of RaiseRefreshesOrRaisesAgain: a grant, and a flag that was held. -/
theorem test_witness_RaiseRefreshesOrRaisesAgain_first_out :
    let s := group 0 { GroupRec.default with firstOutEnable := true } (run [note 7 .fleeting] [])
    let held := group 0 { GroupRec.default with marker := some 7 } (run [{ note 7 .fleeting with firstOut := true }] [])
    (s.ParentsOk ∧ s.TableOk ∧ s.inModeNow .run ∧ s.notice? (UserPt.pt 7) = some (note 7 .fleeting) ∧
      (s.pointRec 7).cls ≠ .indication ∧ (s.groupRec 0).firstOutEnable = true ∧ (s.groupRec 0).marker = none ∧
      s.suppressed (UserPt.pt 7) = false ∧ ((after (.raise [0x07, 0x00]) s).groupRec 0).marker = some 7) ∧
    (held.ParentsOk ∧ held.TableOk ∧ (held.groupRec 0).firstOutEnable = false ∧
      held.notice? (UserPt.pt 7) = some { note 7 .fleeting with firstOut := true }) := by
  decide +kernel

/-- Of the arrival clauses at 65 535: the live notices are renumbered in their order, the raised one last. -/
theorem test_witness_RaiseRefreshesOrRaisesAgain_last_number :
    let r := run [note 3 .standing, note 7 .fleeting] [3]
    let s := r.withNt { r.nt with arrival := 65535 }
    let t := after (.raise [0x07, 0x00]) s
    (s.TableOk ∧ s.inModeNow .run ∧ s.nt.arrival = 65535 ∧ s.notice? (UserPt.pt 7) = some (note 7 .fleeting)) ∧
    (t.notice? 3).map (·.arrival) = some 1 ∧ (t.notice? 7).map (·.arrival) = some 2 ∧ t.nt.arrival = 3 := by
  decide +kernel

/-- What of the presented view counts for its change (log 12). -/
def view (s : State) : List (Pt × Phase × Nat) := s.presented.map fun n => (n.point, n.phase, n.level)

/-- Of the window clauses: the view changes with the anchor below the new ALERT notice (a jump), with the anchor followed, and
not at all for a suppressed point; the timer starts when a RETURNED notice pushes the window down. -/
theorem test_witness_WindowFollows :
    let s := run [note 1 .alert, note 2 .alert, note 3 .alert, note 4 .alert] [1, 2, 3, 4]
    let low := s.withPres { s.pres with top := 1, anchor := some 2 }
    let hot := group 1 { GroupRec.default with level := 4 } (point 9 { PointRec.default with group := 1 } low)
    let child := point 9 { PointRec.default with parent := some 1 } low
    (low.TableOk ∧ (after (.raise [0x09, 0x00]) low).pres.top = 1 ∧ view (after (.raise [0x09, 0x00]) low) ≠ view low) ∧
    ((after (.raise [0x09, 0x00]) hot).pres.top = 0 ∧ view (after (.raise [0x09, 0x00]) hot) ≠ view hot) ∧
    (view (after (.raise [0x09, 0x00]) child) = view child ∧ child.ParentsOk) := by
  decide +kernel

theorem test_witness_WindowFollows_timer :
    let s := (run [note 1 .standing, note 2 .standing, note 3 .standing, note 4 .standing, note 5 .returned]
      [1, 2, 3, 4]).withShelf [{ point := 5, time := { left := 60, due := false } }]
    let t := after (.unshelve [0x05]) (s.withPres { s.pres with anchor := some 1 })
    s.TableOk ∧ s.pres.top = 0 ∧ s.pres.scrollTimer = none ∧ t.pres.top = 1 ∧
      t.pres.scrollTimer = some { left := 30, due := false } := by
  decide +kernel

/-- Of the chirp clauses: a trigger, a running burst, and a steady pattern over one. -/
theorem test_witness_ChirpFollows :
    let s := group 0 { GroupRec.default with level := 1 } idleRun
    let t := after (.raise [0x09, 0x00]) s
    let loud := after (.raise [0x0A, 0x00]) (point 10 { PointRec.default with group := 1 } t)
    t.snd.chirp = some 0 ∧ t.hornPattern = .chirp ∧ (after (.raise [0x08, 0x00]) t).snd.chirp = some 0 ∧
      loud.hornPattern = .beat ∧ loud.snd.chirp = none := by
  decide +kernel

theorem test_witness_ClearRequestClearsThePoint :
    let s := point 7 { PointRec.default with seq := .manual } (point 6 { PointRec.default with cls := .indication }
      (run [note 5 .alert, note 6 .standing, note 7 .standing, note 8 .standing] [5, 6, 7, 8, 9]))
    (s.inModeNow .run ∧ s.TableOk ∧ s.ParentsOk ∧ s.bindingLine 5 = none) ∧
    (s.active (UserPt.pt 5) = true ∧ s.notice? (UserPt.pt 5) = some (note 5 .alert)) ∧
    ((s.pointRec 6).cls = .indication ∧ s.notice? (UserPt.pt 6) = some (note 6 .standing)) ∧
    ((s.pointRec 7).seq ≠ .auto ∧ s.notice? (UserPt.pt 7) = some (note 7 .standing)) ∧
    ((s.pointRec 8).seq = .auto ∧ s.notice? (UserPt.pt 8) = some (note 8 .standing)) ∧
    (s.active (UserPt.pt 9) = true ∧ s.notice? (UserPt.pt 9) = none) ∧
    (s.active (UserPt.pt 0) = false ∧ s.ChirpOk ∧ s.bindingLine 0 = none) ∧
    ((line 3 (bound (some 9) .quiet) idleRun).bindingLine 9 ≠ none) ∧
    ((group 0 { GroupRec.default with enabled := false } s).groupRec 0).enabled = false := by
  decide +kernel

/-- Of the clauses on children and on a pending point: a silenced, a shelved and a standing child; a pending INDICATION, the
last of the set, and a pending ALARM; and a clear without an edge. -/
theorem test_witness_ClearRequestClearsThePoint_children :
    let par := { PointRec.default with parent := some 5 }
    let s := (point 6 par (point 7 par (point 8 par
      (run [{ note 6 .alert with silenced := true }, note 7 .alert, note 8 .standing] [5, 6, 7, 8])))).withShelf
        [{ point := 7, time := { left := 60, due := false } }]
    let off := point 5 { PointRec.default with group := 1 } (group 1 { GroupRec.default with enabled := false } s)
    (s.inModeNow .run ∧ s.TableOk ∧ s.ParentsOk ∧ s.bindingLine 5 = none ∧ s.active (UserPt.pt 5) = true) ∧
    ((s.pointRec 6).parent = some 5 ∧ s.shelved 6 = false ∧ s.notice? 6 = some { note 6 .alert with silenced := true }) ∧
    (s.shelved 7 = true ∧ s.notice? 7 = some (note 7 .alert) ∧ s.notice? 8 = some (note 8 .standing)) ∧
    (off.TableOk ∧ off.ParentsOk ∧ off.active (UserPt.pt 5) = true ∧ off.groupEnabled 5 = false ∧
      (after (.clear [0x05]) off).flagged .newAlert = true) := by
  decide +kernel

theorem test_witness_ClearRequestClearsThePoint_pending :
    let s := full.withPt { full.pt with cond := full.pt.cond.set 100 true }
    let ind := point 100 { PointRec.default with cls := .indication } s
    (s.inModeNow .run ∧ s.TableOk ∧ s.ParentsOk ∧ s.active (UserPt.pt 100) = true ∧ s.notice? (UserPt.pt 100) = none ∧
      100 ∈ s.nt.pendSet ∧ (s.pointRec 100).cls ≠ .indication ∧ s.groupEnabled 100 = true) ∧
    (ind.TableOk ∧ ind.ParentsOk ∧ (ind.pointRec 100).cls = .indication ∧ (after (.clear [100]) ind).nt.pendSet = []) := by
  decide +kernel

theorem test_witness_AcknowledgeReachesTheNamedNotice :
    let s := point 7 { PointRec.default with seq := .ringback } (point 6 { PointRec.default with seq := .manual }
      (run [{ note 5 .alert with firstOut := true }, note 6 .fleeting, note 7 .returned, note 8 .standing, note 9 .fleeting]
        [5, 8]))
    (s.TableOk ∧ s.inModeNow .run ∧ s.nt.pendSet = [] ∧ s.notice? 4 = none) ∧
    (s.notice? 5 = some { note 5 .alert with firstOut := true } ∧ s.classOf 5 ≠ .indication ∧ s.groupOf 5 = some 0) ∧
    (s.notice? 6 = some (note 6 .fleeting) ∧ s.seqOf 6 = .manual) ∧ (s.notice? 7 = some (note 7 .returned) ∧ s.seqOf 7 = .ringback) ∧
    (s.notice? 8 = some (note 8 .standing)) ∧ (s.notice? 9 = some (note 9 .fleeting) ∧ s.seqOf 9 ≠ .manual) ∧
    (full.TableOk ∧ full.inModeNow .run ∧ full.notice? 129 ≠ none) := by
  decide +kernel

/-- Of the clause on a notice that stands after its ack, with points pending. -/
theorem test_witness_AcknowledgeReachesTheNamedNotice_stays :
    full.TableOk ∧ full.inModeNow .run ∧ full.nt.pendSet ≠ [] ∧
      ((after (.acknowledge [0x00, 129]) full).notice? panelOverflow).map (fun n => (n.phase, n.arrival)) = some (.standing, 130) := by
  decide +kernel

theorem test_witness_ScopedAcksAndResetsReachTheView :
    let s := point 7 { PointRec.default with seq := .ringback } (point 6 { PointRec.default with group := 15 }
      (run [note 5 .alert, note 6 .fleeting, note 7 .returned, note 8 .standing] [5, 8]))
    (s.TableOk ∧ s.inModeNow .run) ∧ (s.withheld 5 = false ∧ s.groupOf 5 = some 0) ∧ (s.withheld 6 = false ∧ s.groupOf 6 = some 15) ∧
      (note 7 .returned ∈ s.nt.notices ∧ s.seqOf 7 = .ringback ∧ s.seqOf 7 ≠ .auto ∧ s.classOf 7 ≠ .indication) := by
  decide +kernel

theorem test_witness_ResetRetiresAReturnedNotice :
    let s := point 7 { PointRec.default with seq := .ringback } (point 6 { PointRec.default with seq := .manual }
      (run [note 5 .alert, note 6 .returned, note 7 .returned] [5]))
    s.TableOk ∧ s.inModeNow .run ∧ s.notice? 5 = some (note 5 .alert) ∧ s.notice? 6 = some (note 6 .returned) ∧ s.seqOf 6 = .manual ∧
      s.notice? 7 = some (note 7 .returned) ∧ s.seqOf 7 = .ringback ∧ s.classOf 7 ≠ .indication ∧ s.notice? 129 = none := by
  decide +kernel

theorem test_witness_SilenceQuietsTheHorn :
    let n : Notice := { note 5 .alert with silenced := true, realert := some ranOut }
    let s := run [n, note 6 .fleeting, note 7 .standing] [5, 7]
    s.TableOk ∧ s.inModeNow .run ∧ s.inService = true ∧ s.notice? 5 = some n ∧ n.realert = some ranOut ∧ ranOut.due = true ∧
      s.sounding (note 6 .fleeting) = true ∧ s.sounding n = false ∧ s.sounding (note 7 .standing) = false := by
  decide +kernel

theorem test_witness_RetireAdmitsTheMostUrgentPending :
    (full.TableOk ∧ full.inModeNow .run ∧ full.notice? 0 = some (note 0 .fleeting) ∧ userOf 0 ≠ none ∧ full.nt.pendSet = [100]) ∧
    ((run [note 5 .alert] [5]).TableOk ∧ (run [note 5 .alert] [5]).nt.pendSet = []) ∧
    (full.notice? panelOverflow ≠ none ∧ userOf panelOverflow = none) ∧ full.notice? hostSilent = none := by
  decide +kernel

theorem test_witness_ArbiterChoosesByLevelThenNumber :
    (full.TableOk ∧ full.nt.pendSet ≠ []) ∧ idleRun.TableOk ∧ idleRun.nt.pendSet = [] := by
  decide +kernel

theorem test_witness_ShelveSetsTheEntry :
    let s := point 5 { PointRec.default with shelveLimit := 240 } idleRun
    let crowded := s.withShelf ((List.finRange 16).map fun i =>
      { point := Fin.castLE (by decide) i, time := { left := 60 + i.val, due := false } })
    s.inModeNow .run ∧ userOf 129 = none ∧ s.shelveLimitOf 6 < 1 ∧
    (userOf 5 = some 5 ∧ 240 ≤ s.shelveLimitOf 5 ∧ s.shelf.length < 16) ∧
    (crowded.shelf.length = 16 ∧ crowded.shelfEntry? 5 ≠ none ∧ (point 20 { PointRec.default with shelveLimit := 1 } crowded).shelfEntry? 20 = none ∧
      1 ≤ (point 20 { PointRec.default with shelveLimit := 1 } crowded).shelveLimitOf 20) := by
  decide +kernel

theorem test_witness_ShelvingEndsInAReturn :
    let s := (run [{ note 5 .alert with silenced := true }] [5]).withShelf [{ point := 5, time := ranOut }]
    let kept := point 5 { PointRec.default with parent := some 6 } ((run [note 5 .fleeting] [6]).withShelf [{ point := 5, time := ranOut }])
    (s.TableOk ∧ s.ShelfOk ∧ s.inModeNow .run ∧ s.shelfEntry? (UserPt.pt 5) ≠ none ∧ s.shelfEntry? (UserPt.pt 6) = none ∧
      s.shelf = [{ point := 5, time := ranOut }] ∧ s.suppressed (UserPt.pt 5) = false) ∧
    (kept.TableOk ∧ kept.ShelfOk ∧ kept.suppressed (UserPt.pt 5) = true) := by
  decide +kernel

theorem test_witness_ShelvingEndsInAReturn_system_points :
    idleRun.inModeNow .run ∧ idleRun.TableOk ∧ idleRun.ShelfOk ∧ hostSilent = (128 : Pt) ∧ panelOverflow = (129 : Pt) := by
  decide +kernel

theorem test_witness_StartEntersRun :
    let s := line 3 (bound (some 9) .active) (State.reset.withPt { State.reset.pt with cond := State.reset.pt.cond.set 9 true })
    let bad := point 127 { PointRec.default with parent := some 127 } State.reset
    (s.TableOk ∧ s.ConfigEmpty ∧ s.inModeNow .config ∧ (∀ u, s.offending u = false) ∧ s.bindingLine 9 ≠ none ∧
      (s.groupRec (s.pointRec 9).group).enabled = true ∧ s.active (UserPt.pt 9) = true) ∧
    (bad.TableOk ∧ bad.ConfigEmpty ∧ bad.inModeNow .config ∧ bad.offending 127 = true ∧ ∀ v, bad.offending v = true → 127 ≤ v) := by
  decide +kernel

theorem test_witness_StopLeavesRun : full.TableOk ∧ full.inModeNow .run := by decide +kernel

theorem test_witness_RawChangesDriveTheQualification :
    let s := line 3 (bound none .active) (line 2 (bound none .rising) (line 1 (bound none .falling) idleRun))
    let k := key 3 { KeyRec.default with sample := true, state := .made }
      (key 2 { KeyRec.default with sample := true, state := .making } (key 1 { KeyRec.default with state := .breaking } idleRun))
    s.inService = true ∧ ((s.lineRec 0).sample = false ∧ (s.lineRec 0).state = .quiet) ∧
    ((s.lineRec 1).sample = false ∧ (s.lineRec 1).state = .falling) ∧ ((s.lineRec 2).sample = true ∧ (s.lineRec 2).state = .rising) ∧
    ((s.lineRec 3).sample = true ∧ (s.lineRec 3).state = .active) ∧
    k.inService = true ∧ ((k.keyRec 0).sample = false ∧ (k.keyRec 0).state = .open) ∧
    ((k.keyRec 1).sample = false ∧ (k.keyRec 1).state = .breaking) ∧ ((k.keyRec 2).sample = true ∧ (k.keyRec 2).state = .making) ∧
    ((k.keyRec 3).sample = true ∧ (k.keyRec 3).state = .made) := by
  decide +kernel

theorem test_witness_LineQualifyExpiryMovesThePoint_up :
    let s := line 2 { bound (some 9) .rising with count := 1, timer := some { left := 60, due := false } }
      (line 3 (bound (some 8) .rising) idleRun)
    s.TableOk ∧ s.ConfigEmpty ∧ s.ServiceOk ∧ s.ParentsOk ∧ s.inService = true ∧ (s.lineRec 3).hold = .none ∧
      (s.lineRec 3).state = .rising ∧ (s.lineRec 3).timer = none ∧ s.delivers (UserPt.pt 8) = true ∧
      s.active (UserPt.pt 8) = false ∧ (s.lineRec 2).count + 1 < (s.lineRec 2).chatterLimit := by
  decide +kernel

/-- Of the clauses of a line raise: a notice created with the first-out grant. -/
theorem test_witness_line_raise_creates :
    let s := group 0 { GroupRec.default with firstOutEnable := true } (line 3 (bound (some 8) .rising) idleRun)
    (s.ServiceOk ∧ s.notice? (UserPt.pt 8) = none ∧ s.userCount < 48 ∧ s.nt.arrival < 65535 ∧ (s.pointRec 8).cls ≠ .indication) ∧
    ((after (.lineQualifyExpiry 3) s).groupRec 0).marker = some 8 := by
  decide +kernel

/-- Of the origin clause of a line raise: no other line binds the point. -/
theorem test_witness_line_raise_of_one_line :
    let s := line 3 (bound (some 8) .rising) idleRun
    ∀ k, (s.lineRec k).bound = some 8 → k = 3 := by
  decide +kernel

/-- Of the clauses of a line raise: a notice raised again from FLEETING, at arrival number 65 535. -/
theorem test_witness_line_raise_raises_again :
    let again := line 3 (bound (some 7) .rising) (run [note 7 .fleeting] [])
    let last := again.withNt { again.nt with arrival := 65535 }
    (last.TableOk ∧ last.ServiceOk ∧ last.delivers (UserPt.pt 7) = true ∧ last.active (UserPt.pt 7) = false) ∧
    last.notice? (UserPt.pt 7) = some (note 7 .fleeting) ∧
    ((after (.lineQualifyExpiry 3) last).notice? 7).map (·.arrival) = some 1 := by
  decide +kernel

/-- Of the clauses of a line raise into a full table: the first pending point, which raises PANEL OVERFLOW. -/
theorem test_witness_line_raise_waits_first :
    let s := line 3 (bound (some 101) .rising) (run ((List.finRange 48).map fun i => note (Fin.castLE (by decide) i) .fleeting) [])
    (s.TableOk ∧ s.ServiceOk ∧ s.delivers (UserPt.pt 101) = true ∧ 48 ≤ s.userCount ∧ s.nt.pendSet = []) ∧
    (after (.lineQualifyExpiry 3) s).flagged .overflow = true := by
  decide +kernel

/-- Of the clauses of a line raise into a full table: a second pending point. -/
theorem test_witness_line_raise_waits_second :
    let s := line 3 (bound (some 101) .rising) full
    (s.TableOk ∧ s.ServiceOk ∧ s.delivers (UserPt.pt 101) = true ∧ 48 ≤ s.userCount ∧ s.nt.pendSet ≠ []) ∧
    (after (.lineQualifyExpiry 3) s).nt.pendSet = [100, 101] := by
  decide +kernel

theorem test_witness_LineQualifyExpiryMovesThePoint_down :
    let f := line 3 (bound (some 8) .falling) (run [note 8 .alert] [8])
    f.TableOk ∧ f.ServiceOk ∧ f.ParentsOk ∧ (f.lineRec 3).state = .falling ∧ (f.lineRec 3).hold = .none ∧
      f.delivers (UserPt.pt 8) = true ∧ f.active (UserPt.pt 8) = true ∧ f.notice? (UserPt.pt 8) = some (note 8 .alert) := by
  decide +kernel

/-- A parent that is ACTIVE, with a child in FLEETING. -/
def family : State := point 9 { PointRec.default with parent := some 8 } (run [note 8 .alert, note 9 .fleeting] [8])

theorem test_witness_LineQualifyExpiryMovesThePoint_children :
    let f := line 3 (bound (some 8) .falling) family
    f.TableOk ∧ f.ConfigEmpty ∧ f.ServiceOk ∧ f.ParentsOk ∧ f.ctl.mode = .run ∧ f.active (UserPt.pt 8) = true ∧
      (f.pointRec 9).parent = some 8 ∧ f.notice? (UserPt.pt 9) = some (note 9 .fleeting) ∧ f.shelved (UserPt.pt 9) = false := by
  decide +kernel

theorem test_witness_ChatterTimersCloseAndRelease_children :
    let h := line 3 { bound (some 8) .quiet with hold := .chatter, count := 3, timer := some ranOut } family
    h.TableOk ∧ h.ParentsOk ∧ h.ctl.mode = .run ∧ h.active (UserPt.pt 8) = true ∧
      h.notice? (UserPt.pt 9) = some (note 9 .fleeting) := by
  decide +kernel

/-- Of the clauses on a pending point, of LineQualifyExpiryMovesThePoint and ChatterTimersCloseAndRelease. -/
theorem test_witness_line_clears_a_pending_point :
    let p := line 3 (bound (some 100) .falling) (full.withPt { full.pt with cond := full.pt.cond.set 100 true })
    p.TableOk ∧ p.ConfigEmpty ∧ p.ServiceOk ∧ p.ParentsOk ∧ p.delivers (UserPt.pt 100) = true ∧
      p.active (UserPt.pt 100) = true ∧ p.notice? (UserPt.pt 100) = none ∧ 100 ∈ p.nt.pendSet := by
  decide +kernel

theorem test_witness_LineQualifyExpiryMovesThePoint_unbound :
    let free := line 31 { bound none .rising with chatterLimit := 0 } idleRun
    free.TableOk ∧ free.ParentsOk ∧ (free.lineRec 31).bound = none ∧ (free.lineRec 31).chatterLimit = 0 ∧
      (free.lineRec 31).state = .rising := by
  decide +kernel

theorem test_witness_ChatterHoldKeepsTheLineActive :
    let open' : Option Countdown := some { left := 60, due := false }
    let s := line 3 { bound (some 8) .rising with count := 2, timer := open' } (run [note 8 .fleeting] [])
    let h := line 2 { bound none .falling with hold := .chatter, count := 3, timer := open' }
      (line 3 { bound (some 8) .rising with hold := .chatter, count := 3, timer := open' } idleRun)
    (s.TableOk ∧ s.ChirpOk ∧ s.inService = true ∧ (s.lineRec 3).state = .rising ∧ (s.lineRec 3).hold = .none ∧
      (s.lineRec 3).chatterLimit ≠ 0 ∧ (s.lineRec 3).timer ≠ none ∧ (s.lineRec 3).chatterLimit ≤ (s.lineRec 3).count + 1 ∧
      s.notice? (UserPt.pt 8) = some (note 8 .fleeting)) ∧
    (h.TableOk ∧ h.ChirpOk ∧ (h.lineRec 3).hold = .chatter ∧ (h.lineRec 3).state = .rising ∧ (h.lineRec 2).hold = .chatter ∧
      (h.lineRec 2).state = .falling ∧ (h.lineRec 2).bound = none) := by
  decide +kernel

/-- A record whose next qualified activation reaches the limit. -/
def atLimit : LineRec := { bound (some 8) .rising with count := 2, timer := some { left := 60, due := false } }

/-- Of the raise by the entry into hold: a notice created with the mark. -/
theorem test_witness_ChatterHoldKeepsTheLineActive_creates :
    let s := line 3 atLimit idleRun
    (s.TableOk ∧ s.ConfigEmpty ∧ s.ServiceOk ∧ s.ParentsOk ∧ s.delivers (UserPt.pt 8) = true ∧ s.active (UserPt.pt 8) = false) ∧
    ((after (.lineQualifyExpiry 3) s).notice? 8).map (·.chattering) = some true := by
  decide +kernel

/-- Of the raise by the entry into hold: a notice raised again, the mark being a change of its own. -/
theorem test_witness_ChatterHoldKeepsTheLineActive_raises_again :
    let s := line 3 atLimit (run [note 8 .fleeting] [])
    (s.TableOk ∧ s.ConfigEmpty ∧ s.ServiceOk ∧ s.ParentsOk ∧ s.delivers (UserPt.pt 8) = true) ∧
    (after (.lineQualifyExpiry 3) s).nt.rev = 3 := by
  decide +kernel

theorem test_witness_ChatterTimersCloseAndRelease_window :
    let s := line 2 { bound none .active with count := 2, timer := some ranOut } idleRun
    s.TableOk ∧ s.ParentsOk ∧ s.inService = true ∧ (s.lineRec 2).timer = some ranOut ∧ ranOut.due = true ∧
      (s.lineRec 2).hold = .none := by
  decide +kernel

theorem test_witness_ChatterTimersCloseAndRelease_quiet :
    let h := line 3 { bound (some 8) .quiet with hold := .chatter, count := 3, timer := some ranOut } (run [note 8 .alert] [8])
    h.TableOk ∧ h.ParentsOk ∧ h.inService = true ∧ (h.lineRec 3).timer = some ranOut ∧ (h.lineRec 3).hold = .chatter ∧
      (h.lineRec 3).state = .quiet ∧ h.delivers (UserPt.pt 8) = true ∧ h.active (UserPt.pt 8) = true ∧
      h.notice? (UserPt.pt 8) = some (note 8 .alert) := by
  decide +kernel

theorem test_witness_ChatterTimersCloseAndRelease_qualified :
    let a := line 3 { bound (some 8) .falling with hold := .chatter, count := 3, timer := some ranOut } (run [note 8 .alert] [8])
    a.TableOk ∧ a.ParentsOk ∧ (a.lineRec 3).hold = .chatter ∧ (a.lineRec 3).state = .falling := by
  decide +kernel

/-- Of the window and burst clauses of a release: the child that comes back into view starts a burst. -/
theorem test_witness_ChatterTimersCloseAndRelease_burst :
    let f := point 9 { PointRec.default with parent := some 8 } (run [{ note 8 .standing with level := 1 }, { note 9 .alert with level := 1 }] [8, 9])
    let h := line 3 { bound (some 8) .quiet with hold := .chatter, count := 3, timer := some ranOut } f
    h.TableOk ∧ h.ParentsOk ∧ h.active (UserPt.pt 8) = true ∧ view (after (.chatterRelease 3) h) ≠ view h ∧
      (after (.chatterRelease 3) h).snd.chirp = some 0 := by
  decide +kernel

/-- Of KeyDebounceTakesThePress, NoticeKeysActLikeTheRequests and ScrollKeysMoveTheWindow. -/
theorem test_witness_key_statements :
    let made := fun (k : KeyNo) (x : KeyState) (t : Option Nat) => key k { sample := true, state := x, repeatTimer := t } idleRun
    (idleRun.ChirpOk ∧ idleRun.inService = true) ∧
    ((made 4 .breaking (some 600)).keyRec 4).state = .breaking ∧
    (((made 3 .making none).keyRec 3).state = .making ∧ (made 3 .making none).kp.testRunning = false ∧
      (made 3 .making none).kp.lock.getLsbD 3 = false) ∧
    ((after (.keyLock [0x3F]) idleRun).kp.lock.getLsbD 5 = true ∧ (after (.lampTest []) idleRun).kp.testRunning = true) ∧
    ((made 2 .making none).inModeNow .run ∧ ((made 2 .making none).keyRec 2).state = .making) ∧
    (((made 5 .made (some 200)).keyRec 5).state = .made ∧ ((made 5 .made (some 200)).keyRec 5).repeatTimer ≠ none ∧
      (made 5 .made (some 200)).ChirpOk) ∧
    (let s := idleRun.withPres { idleRun.pres with scrollTimer := some ranOut }
     s.ctl.mode = .run ∧ s.pres.scrollTimer = some ranOut ∧ s.ChirpOk) := by
  decide +kernel

/-- Of the ignored repeat press of ScrollKeysMoveTheWindow: a locked key, and CONFIG. -/
theorem test_witness_ScrollKeysMoveTheWindow_ignored :
    let held := { sample := true, state := .made, repeatTimer := some 600 : KeyRec }
    let locked := key 4 held (after (.keyLock [0x3F]) idleRun)
    let out := key 5 held State.reset
    (locked.ChirpOk ∧ locked.inService = true ∧ (locked.keyRec 4).state = .made ∧ (locked.keyRec 4).repeatTimer ≠ none ∧
      locked.kp.lock.getLsbD 4 = true ∧ locked.kp.testRunning = false) ∧
    (out.ChirpOk ∧ out.inService = true ∧ out.ctl.mode = .config ∧ (out.keyRec 5).repeatTimer ≠ none) := by
  decide +kernel

/-- Of StepBoundaryPlaysTheCadence and PatternsTakeTheMostUrgentCase. -/
theorem test_witness_patterns :
    let red := run [{ note 5 .alert with level := 4, firstOut := true }] [5]
    let amber := run [{ note 5 .fleeting with level := 3 }] []
    let back := point 5 { PointRec.default with seq := .ringback, tile := some 0 } (run [note 5 .returned] [])
    let steady := point 5 { PointRec.default with tile := some 47 } (run [note 5 .standing] [5])
    (red.soundsAt 4 = true ∧ red.inService = true) ∧ (amber.soundsAt 4 = false ∧ amber.soundsAt 3 = true) ∧
    (back.soundsAt 2 = false ∧ back.hornPattern = .ringbackTone ∧ back.tilePattern 0 = .wink) ∧
    (steady.hornPattern = .silent ∧ steady.tilePattern 47 = .steady ∧ steady.tilePattern 46 = .off) ∧
    (idleRun.withSnd { idleRun.snd with chirp := some 0 }).hornPattern = .chirp := by
  decide +kernel

/-- Of the burst clauses of StepBoundaryPlaysTheCadence: a burst past its three steps stays, with the horn off. -/
theorem test_witness_StepBoundaryPlaysTheCadence_burst_past :
    let s := idleRun.withSnd { idleRun.snd with chirp := some 3 }
    s.inService = true ∧ (after .stepBoundary s).snd.chirp = some 3 ∧ (after .stepBoundary s).snd.horn = false := by
  decide +kernel

theorem test_witness_TimeMovesCountdownsAndEnds :
    (idleRun.inService = true ∧ (after .stepBoundary idleRun).pres.refresh ≠ none) ∧
    (idleRun.withSnd { idleRun.snd with chirp := some 3 }).snd.chirp = some 3 ∧
    (after (.lampTest []) idleRun).kp.testRunning = true := by
  decide +kernel

theorem test_witness_ComposerShowsWholeFrames :
    let s := after (.setMessage [0x41]) idleRun
    let again := after (.setMessage [0x42]) s
    let c : Snapshot := { State.reset.snapshot with mode := .run, lineMode := .twoLine }
    (s.inService = true ∧ s.pres.composer = .composing s.snapshot ∧ s.pres.dirty = false) ∧
    (again.pres.composer = .composing s.snapshot ∧ again.pres.dirty = true) ∧
    ((after .compositionComplete s).pres.composer = .ready) ∧ s.pres.composer ≠ .ready ∧
    (State.reset.snapshot.mode = .config ∧ c.mode = .run ∧ c.lineMode = .twoLine ∧ s.snapshot.mode = .run ∧
      s.snapshot.lineMode = .fourLine) := by
  decide +kernel

theorem test_witness_ComposerShowsWholeFrames_marks :
    let s := (run [{ note 5 .alert with firstOut := true }, note 6 .returned] [5]).snapshot
    let quiet := { idleRun.snapshot with lineMode := .twoLine, message := [0x41] }
    (s.mode = .run ∧ s.lineMode = .fourLine ∧ s.frame.marks.toList = [.fast, .wink, .steady, .steady]) ∧
    (quiet.mode = .run ∧ quiet.presented = 0 ∧ quiet.message ≠ [] ∧ quiet.frame.marks.get 0 = .steady) := by
  decide +kernel

/-- Of the cells of a notice line: each form of the field, each size of the count, and each marker. -/
theorem test_witness_ComposerShowsWholeFrames_notice_lines :
    noticeLine { note 5 .alert with field := .value 0xFFF6 } [0x41] =
      0x21 :: 0x41 :: List.replicate 12 0x20 ++ [0x20, 0x20, 0x20, 0x2D, 0x31, 0x30] ∧
    noticeLine { note 5 .fleeting with field := .value 0x8000 } [] =
      0x7E :: List.replicate 13 0x20 ++ [0x2D, 0x33, 0x32, 0x37, 0x36, 0x38] ∧
    noticeLine { note 5 .returned with field := .text [0x42] } (List.replicate 16 0x41) =
      0x3C :: List.replicate 13 0x41 ++ [0x42, 0x20, 0x20, 0x20, 0x20, 0x20] ∧
    noticeLine { note 5 .standing with count := 9 } (List.replicate 16 0x41) =
      0x20 :: List.replicate 16 0x41 ++ [0x78, 0x39, 0x20] ∧
    noticeLine { note 5 .standing with count := 99, stale := true } [] = 0x3F :: List.replicate 16 0x20 ++ [0x78, 0x39, 0x39] ∧
    noticeLine { note 5 .alert with count := 100, chattering := true } [] =
      0x23 :: List.replicate 16 0x20 ++ [0x78, 0x2B, 0x2B] := by
  decide +kernel

/-- Of the status line and of an empty label: "U01 P02 S00   01/02 ", and "POINT 005" in the first row. -/
theorem test_witness_ComposerShowsWholeFrames_status_line :
    let s := run [note 5 .alert, note 6 .standing] [5, 6]
    s.snapshot.statusLine =
      [0x55, 0x30, 0x31, 0x20, 0x50, 0x30, 0x32, 0x20, 0x53, 0x30, 0x30, 0x20, 0x20, 0x20, 0x30, 0x31, 0x2F, 0x30, 0x32, 0x20] ∧
    s.labelOf 5 = [] ∧
    s.shownLabel 5 = [0x50, 0x4F, 0x49, 0x4E, 0x54, 0x20, 0x30, 0x30, 0x35] ∧
    full.snapshot.statusLine.drop 11 = [0x20, 0x4F, 0x20, 0x30, 0x31, 0x2F, 0x34, 0x39, 0x20] := by
  decide +kernel

/-- Of the message clauses, in either line mode. -/
theorem test_witness_ComposerShowsWholeFrames_message :
    let c : Snapshot := { idleRun.snapshot with message := [0x41] }
    (c.mode = .run ∧ c.lineMode = .fourLine ∧ c.presented = 0 ∧ c.message ≠ [] ∧ (c.frame.cells.get 3).get 0 = 0x41) ∧
    (({ c with lineMode := .twoLine }).frame.cells.get 0).get 0 = 0x41 := by
  decide +kernel

/-- Of the scan-out clauses: the last dot of either line mode, an undriven common, and a lamp test. -/
theorem test_witness_ComposerShowsWholeFrames_scan :
    let two := idleRun.withPres { idleRun.pres with scan := { idleRun.pres.scan with lineMode := .twoLine, orient := .rotated } }
    let tested := after (.lampTest []) two
    (idleRun.inReset = false ∧ idleRun.kp.testRunning = false ∧ idleRun.pres.scan.allLit = false ∧
      (119 : Fin 120).val = 6 * (19 : Fin 20).val + (5 : Fin 6).val ∧ (31 : Fin 32).val = 8 * (3 : Fin 4).val + (7 : Fin 8).val) ∧
    (two.inReset = false ∧ (0 : Fin 120).val + (6 * (19 : Fin 20).val + (5 : Fin 6).val) = 119 ∧
      (15 : Fin 32).val + (8 * (0 : Fin 4).val + (0 : Fin 8).val) = 16 - 1 ∧ two.panelDot 0 16 = false) ∧
    (tested.inReset = false ∧ tested.kp.testRunning = true ∧ tested.panelDot 0 15 = true) := by
  decide +kernel

end Sys2Proof.Tests
end

/-! The admission arbiter (R65): its scan of the Pending Set is the library's `List.argmax` of the members' group
levels, and in an ascending set the first of the members of highest level has the lowest point number. -/

namespace Sys2Proof.Machine

/-- Of two members of an ascending list, the one that stands first is the lesser. -/
theorem lt_of_idxOf_le_of_ascending {l : List UserPt} (hl : l.Pairwise fun u v => u < v) {u v : UserPt}
    (hu : u ∈ l) (hv : v ∈ l) (hne : v ≠ u) (h : l.idxOf u ≤ l.idxOf v) : u < v := by
  have hlt : l.idxOf u < l.idxOf v := lt_of_le_of_ne h fun he => hne ((List.idxOf_inj hu).1 he).symm
  have hasc := List.pairwise_iff_getElem.1 hl _ _ (List.idxOf_lt_length_iff.2 hu) (List.idxOf_lt_length_iff.2 hv) hlt
  rwa [List.getElem_idxOf, List.getElem_idxOf] at hasc

/-- R65: the arbiter takes the first of the members of highest group level. -/
theorem State.arbiterPick_eq_argmax (s : State) : s.arbiterPick = s.nt.pendSet.argmax s.memberLevel := by
  unfold State.arbiterPick List.argmax
  congr 1
  funext best u
  cases best <;> rfl

/-- R65: with no member there is no choice. -/
theorem State.arbiterPick_eq_none_iff (s : State) : s.arbiterPick = none ↔ s.nt.pendSet = [] := by
  rw [s.arbiterPick_eq_argmax, List.argmax_eq_none]

/-- R65: the arbiter's choice from an ascending Pending Set is a member that stands before every other by level, then number. -/
theorem State.arbiterPick_spec {s : State} (hasc : s.nt.pendSet.Pairwise fun u v => u < v) {u : UserPt}
    (hpick : s.arbiterPick = some u) :
    u ∈ s.nt.pendSet ∧
      ∀ v ∈ s.nt.pendSet, v ≠ u →
        s.memberLevel v < s.memberLevel u ∨ (s.memberLevel v = s.memberLevel u ∧ u < v) := by
  rw [s.arbiterPick_eq_argmax] at hpick
  obtain ⟨hu, hmax, hfirst⟩ := List.argmax_eq_some_iff.1 hpick
  refine ⟨hu, fun v hv hne => ?_⟩
  rcases lt_or_eq_of_le (hmax v hv) with hlt | heq
  · exact .inl hlt
  · exact .inr ⟨heq, lt_of_idxOf_le_of_ascending hasc hu hv hne (hfirst v hv heq.ge)⟩

/-- Settles O45: the arbiter's scan is an argmax over a set that TableOk keeps ascending. -/
theorem arbiterChoosesByLevelThenNumber : Obligations.ArbiterChoosesByLevelThenNumber := by
  rintro s ⟨-, hasc, -⟩
  refine ⟨s.arbiterPick_eq_none_iff.2, fun hne => ?_⟩
  obtain ⟨u, hpick⟩ := Option.ne_none_iff_exists'.1 (mt s.arbiterPick_eq_none_iff.1 hne)
  exact ⟨u, hpick, State.arbiterPick_spec hasc hpick⟩

end Sys2Proof.Machine

/-! The link status byte (R158): it is its five fields laid side by side, so that each is read off by itself. -/

namespace Sys2Proof.Machine

/-- R158: the link state's code takes two bits. -/
theorem LinkState.code_setWidth_two (l : LinkState) : (l.code.setWidth 2).setWidth 8 = l.code := by cases l <;> rfl

/-- R158: the last outcome's code takes three bits. -/
theorem LastOutcome.code_setWidth_three (o : LastOutcome) : (o.code.setWidth 3).setWidth 8 = o.code := by cases o <;> rfl

theorem bit_eq_ofBool (b : Bool) : bit b = (BitVec.ofBool b).setWidth 8 := by cases b <;> rfl

/-- Fields shifted to bits 7-6, 5-3, 2 and 1, above a 1, overlap nowhere. -/
theorem shifted_fields_eq_append (x : BitVec 2) (y : BitVec 3) (f a : Bool) :
    (x.setWidth 8 <<< 6) ||| (y.setWidth 8 <<< 3) ||| ((BitVec.ofBool f).setWidth 8 <<< 2) |||
        ((BitVec.ofBool a).setWidth 8 <<< 1) ||| 1 =
      x ++ (y ++ (BitVec.ofBool f ++ (BitVec.ofBool a ++ 1#1))) := by
  revert x y f a
  decide +kernel

/-- R158: the link status byte, most significant field first. -/
theorem State.statusByte_eq_append (s : State) :
    s.statusByte =
      s.link.state.code.setWidth 2 ++
        (s.link.outcome.code.setWidth 3 ++ (BitVec.ofBool s.link.fresh ++ (BitVec.ofBool s.attn ++ 1#1))) := by
  rw [← shifted_fields_eq_append, LinkState.code_setWidth_two, LastOutcome.code_setWidth_three, ← bit_eq_ofBool,
    ← bit_eq_ofBool]
  rfl

/-- R158: bits 7-6 are the link state's code. -/
theorem State.statusByte_linkState (s : State) : s.statusByte.extractLsb' 6 2 = s.link.state.code.setWidth 2 := by
  rw [s.statusByte_eq_append]
  exact BitVec.extractLsb'_append_eq_left

/-- R158: bits 5-3 are the last outcome's code. -/
theorem State.statusByte_lastOutcome (s : State) : s.statusByte.extractLsb' 3 3 = s.link.outcome.code.setWidth 3 := by
  rw [s.statusByte_eq_append, BitVec.extractLsb'_append_eq_of_add_le (by decide)]
  exact BitVec.extractLsb'_append_eq_left

/-- R158: bit 2 is the fresh bit. -/
theorem State.statusByte_fresh (s : State) : s.statusByte.getLsbD 2 = s.link.fresh := by
  simp [State.statusByte, bit_eq_ofBool]

/-- R158: bit 1 mirrors ATTN. -/
theorem State.statusByte_attn (s : State) : s.statusByte.getLsbD 1 = s.attn := by
  simp [State.statusByte, bit_eq_ofBool]

/-- R158: bit 0 is always 1. -/
theorem State.statusByte_marker (s : State) : s.statusByte.getLsbD 0 = true := by
  simp [State.statusByte, bit_eq_ofBool]

/-- R158: no link state has the code 11. -/
theorem LinkState.code_setWidth_ne (l : LinkState) : l.code.setWidth 2 ≠ 0b11 := by cases l <;> decide

/-- R158: no last outcome has the code 110 or 111. -/
theorem LastOutcome.code_setWidth_ne (o : LastOutcome) : o.code.setWidth 3 ≠ 0b110 ∧ o.code.setWidth 3 ≠ 0b111 := by
  cases o <;> decide

/-- R158: bits 7-6 of the status byte are never 11. -/
theorem State.statusByte_linkState_ne (s : State) : s.statusByte.extractLsb' 6 2 ≠ 0b11 :=
  s.statusByte_linkState ▸ s.link.state.code_setWidth_ne

/-- R158: bits 5-3 of the status byte are never 110 or 111. -/
theorem State.statusByte_lastOutcome_ne (s : State) :
    s.statusByte.extractLsb' 3 3 ≠ 0b110 ∧ s.statusByte.extractLsb' 3 3 ≠ 0b111 :=
  s.statusByte_lastOutcome ▸ s.link.outcome.code_setWidth_ne

/-- R158: the marker tells the status byte from a MISO that stands low. -/
theorem State.statusByte_ne_low (s : State) : s.statusByte ≠ 0x00 := fun h => by
  have hmarker := s.statusByte_marker
  rw [h] at hmarker
  exact absurd hmarker (by decide)

/-- R158: bits 7-6 tell the status byte from a MISO that stands high. -/
theorem State.statusByte_ne_high (s : State) : s.statusByte ≠ 0xFF := fun h =>
  s.statusByte_linkState_ne (by rw [h]; decide)

/-- R158: the status byte of a waiting reply that is not fresh, with ATTN asserted. -/
theorem State.statusByte_replyReady {s : State} (hstate : s.link.state = .replyReady) (houtcome : s.link.outcome = .taken)
    (hfresh : s.link.fresh = false) (hattn : s.attn = true) : s.statusByte = 0x8B := by
  rw [s.statusByte_eq_append, hstate, houtcome, hfresh, hattn]
  decide

/-- R156, R157: a CSN fall in service starts a transaction that carries the status byte of that moment and the reply that
the byte reports. -/
theorem exec_csnFall_inService {s : State} (h : s.inService = true) (hcsn : s.link.csnLow = false) :
    exec .csnFall s =
      .next (s.withLink { s.link with
        csnLow := true
        muted := s.ctl.softHold
        trans := some
          { status := s.statusByte, reply := if s.link.state = .replyReady then s.link.slot else none } }) := by
  change execCsnFall s = _
  simp [execCsnFall, h, hcsn]

/-- R157: MISO byte 0 of a transaction is its status byte. -/
@[simp] theorem Transaction.miso_zero (t : Transaction) : t.miso 0 = t.status := rfl

/-- Settles O14: every clause is read off the layout of the status byte, or off the CSN fall that samples it. -/
theorem linkStatusByteReportsTheLink : Obligations.LinkStatusByteReportsTheLink := by
  intro s
  refine ⟨?linkState, ?lastOutcome, s.statusByte_fresh, s.statusByte_attn, s.statusByte_marker, s.statusByte_linkState_ne,
    s.statusByte_lastOutcome_ne.1, s.statusByte_lastOutcome_ne.2, s.statusByte_ne_low, s.statusByte_ne_high, ?atReset,
    State.statusByte_replyReady, ?atCsnFall⟩
  case linkState =>
    rw [s.statusByte_linkState]
    cases s.link.state <;> rfl
  case lastOutcome =>
    rw [s.statusByte_lastOutcome]
    cases s.link.outcome <;> rfl
  case atReset => decide
  case atCsnFall => exact fun h hcsn => ⟨_, exec_csnFall_inService h hcsn, _, rfl, Transaction.miso_zero _⟩

end Sys2Proof.Machine

/-! The CRC-8 of the frames (R162). -/

namespace Sys2Proof.Machine

/-- R162: the CRC of a sequence that has one byte more. -/
theorem crc8_append_singleton (bytes : List Byte) (b : Byte) : crc8 (bytes ++ [b]) = crcByte (crc8 bytes) b :=
  List.foldl_concat ..

/-- R162: a byte is XORed into the register, which is then shifted eight times. -/
theorem crcByte_eq_iterate (r b : Byte) : crcByte r b = crcShift^[8] (r ^^^ b) := rfl

/-- R162: the polynomial follows a shift whose top bit was 1. -/
theorem crcShift_eq (r : Byte) : crcShift r = if r.getLsbD 7 then (r <<< 1) ^^^ 0x2F else r <<< 1 := by
  rw [crcShift, BitVec.msb_eq_getLsbD_last]

/-- R162: a register of zeros stays so under the shift. -/
theorem crcShift_zero : crcShift 0 = 0 := rfl

/-- R162: the register's own value, as the next byte, brings it to zero. -/
theorem crcByte_self (r : Byte) : crcByte r r = 0 := by
  rw [crcByte_eq_iterate, BitVec.xor_self]
  exact Function.iterate_fixed crcShift_zero 8

/-- R162: over a sequence followed by its CRC the register is zero. -/
theorem crc8_withCrc (bytes : List Byte) : crc8 (withCrc bytes) = 0 := by
  rw [withCrc, crc8_append_singleton, crcByte_self]

/-- Settles O16: the CRC is a fold whose step on its own value gives zero; the frames are `withCrc` of their other bytes. -/
theorem crcFollowsItsParameters : Obligations.CrcFollowsItsParameters := by
  refine ⟨rfl, fun bytes b => ?byteStep, crcShift_eq, by decide, by decide, by decide, by decide, crc8_withCrc,
    fun _ _ _ => rfl, fun _ => rfl⟩
  case byteStep => rw [crc8_append_singleton, crcByte_eq_iterate]

end Sys2Proof.Machine

/-! The attention events (R175 to R177): the flags and ATTN, and the three requests about them. -/

namespace Sys2Proof.Machine

/-- R176: ATTN is asserted exactly while some event has both its flag and its enable set. -/
theorem State.attn_iff (s : State) :
    s.attn = true ↔ ∃ b : Nat, s.link.flags.getLsbD b = true ∧ s.link.enables.getLsbD b = true := by
  unfold State.attn
  rw [decide_eq_true_iff, ne_eq, BitVec.eq_of_getLsbD_eq_iff, not_forall]
  constructor
  · rintro ⟨b, hb⟩
    have hboth : b < 8 ∧ s.link.flags.getLsbD b = true ∧ s.link.enables.getLsbD b = true := by simpa using hb
    exact ⟨b, hboth.2⟩
  · rintro ⟨b, hflag, henable⟩
    refine ⟨b, ?_⟩
    simp [hflag, henable, BitVec.lt_of_getLsbD hflag]

/-- R175: every attention event has its bit. -/
theorem AttnEvent.mask_ne_zero (e : AttnEvent) : e.mask ≠ 0 := by cases e <;> decide

/-- R175: an event whose flag is set is flagged. -/
theorem State.flagged_setFlag (s : State) (k : Link) (e : AttnEvent) : (s.withLink (k.setFlag e)).flagged e = true := by
  have habsorb : (k.flags ||| e.mask) &&& e.mask = e.mask := by
    ext i hi
    simpa using Or.inr
  simpa [State.flagged, Link.setFlag, habsorb] using e.mask_ne_zero

/-- R165: the placement of a reply sets REPLY. -/
theorem State.flagged_place (s : State) (f : ReplyFrame) : (s.withLink (s.link.place f)).flagged .reply = true :=
  s.flagged_setFlag _ .reply

/-- R152: nothing requests a composition where nothing changed. -/
theorem compositionDue_self (s : State) : compositionDue s s = false := by simp [compositionDue]

/-- An event at the Link alone ends as it is: the window, the composer and the chirp burst do not read the Link. -/
theorem settle_onLink {s : State} (h : s.ChirpOk) (f : Link → Link) :
    settle s (s.work.onState fun v => v.withLink (f v.link)) = s.withLink (f s.link) :=
  settle_still s _ rfl rfl rfl (compositionDue_self s) (chirpAfter_none s h)

/-- READ_EVENTS in service: the report alone. -/
theorem exec_readEvents {s : State} (h : s.inService = true) :
    exec (.readEvents []) s = .next (s.replied 0x30 [] .ok [s.link.flags, s.link.enables]) :=
  congrArg Host.Outcome.next (request_answer s 0x30 [] .ok _ h)

/-- The run of a request that is accepted and acts on the Link alone. -/
theorem request_onLink {s : State} (h : s.inService = true) (hchirp : s.ChirpOk) (kind : Byte) (pl : List Byte)
    (f : Link → Link) :
    s.request kind pl (.act .ok (s.work.onState fun v => v.withLink (f v.link))) =
      (s.withLink (f s.link)).replied kind pl .ok [] := by
  rw [request_act s kind pl .ok _ h, settle_onLink hchirp]
  rfl

/-- CLEAR_EVENTS in service: the flags under the mask go. -/
theorem exec_clearEvents {s : State} (h : s.inService = true) (hchirp : s.ChirpOk) (m : Byte) :
    exec (.clearEvents [m]) s = .next ((s.withLink (s.link.clearFlags m)).replied 0x31 [m] .ok []) :=
  congrArg Host.Outcome.next (request_onLink h hchirp 0x31 [m] fun k => k.clearFlags m)

/-- EVENT_ENABLE in service: the enables take the mask. -/
theorem exec_eventEnable {s : State} (h : s.inService = true) (hchirp : s.ChirpOk) (m : Byte) :
    exec (.eventEnable [m]) s = .next ((s.withLink { s.link with enables := m }).replied 0x32 [m] .ok []) :=
  congrArg Host.Outcome.next (request_onLink h hchirp 0x32 [m] fun k => { k with enables := m })

/-- Settles O26: the report changes nothing; the two writes act on the Link alone, which the end of their event does not read. -/
theorem eventRequestsActOnTheFlags : Obligations.EventRequestsActOnTheFlags := by
  intro s m h
  exact ⟨exec_readEvents h, fun hchirp => ⟨exec_clearEvents h hchirp m, exec_eventEnable h hchirp m⟩, s.attn_iff,
    s.flagged_place⟩

end Sys2Proof.Machine

/-! The reports of identity and status (R184). -/

namespace Sys2Proof.Machine

/-- R182: with the empty payload that it takes, a report without arguments passes the length stage and is answered. -/
@[simp] theorem plainReport_nil (reply : List Byte) : plainReport [] reply = .answer .ok reply := rfl

/-- A report without arguments in service: the reply is its only change. -/
theorem request_plainReport {s : State} (h : s.inService = true) (kind : Byte) (reply : List Byte) :
    s.request kind [] (plainReport [] reply) = s.replied kind [] .ok reply := by
  rw [plainReport_nil]
  exact request_answer s kind [] .ok reply h

/-- R184: the mode's byte is 1 in RUN and 0 in CONFIG. -/
theorem Mode.code_eq_ite (m : Mode) : m.code = if m = .run then 1 else 0 := by cases m <;> rfl

/-- R184: the part's two codes high byte first, its revision and the mode. -/
theorem State.identityReport_eq (s : State) :
    s.identityReport = [0x3A, 0x71, 0x0A, 0x48, 0x01, if s.ctl.mode = .run then 1 else 0] := by
  have hvendor : be16 Config.vendorCode = [0x3A, 0x71] := by decide
  have hpart : be16 Config.partCode = [0x0A, 0x48] := by decide
  have hrevision : byteOf Config.revision = 0x01 := by decide
  rw [State.identityReport, hvendor, hpart, hrevision, Mode.code_eq_ite]
  rfl

/-- R184: the nine bytes of STATUS, the mode's byte written out. -/
theorem State.statusReport_eq (s : State) :
    s.statusReport =
      [if s.ctl.mode = .run then 1 else 0, byteOf s.userCount, byteOf s.nt.pendSet.length, byteOf s.shelf.length] ++
        be16 s.nt.rev.toNat ++ [s.hornPattern.code, s.link.sup.code, s.link.flags] := by
  rw [State.statusReport, Mode.code_eq_ite]

/-- IDENTIFY in service: the report alone, in either mode. -/
theorem exec_identify {s : State} (h : s.inService = true) :
    exec (.identify []) s = .next (s.replied 0x01 [] .ok s.identityReport) :=
  congrArg Host.Outcome.next (request_plainReport h 0x01 s.identityReport)

/-- STATUS in service: the report alone, in either mode. -/
theorem exec_status {s : State} (h : s.inService = true) :
    exec (.status []) s = .next (s.replied 0x02 [] .ok s.statusReport) :=
  congrArg Host.Outcome.next (request_plainReport h 0x02 s.statusReport)

/-- Settles O23: both requests are reports without arguments, so each changes the reply alone, and the two reports are read byte
by byte. -/
theorem identifyAndStatusReport : Obligations.IdentifyAndStatusReport := by
  intro s h
  constructor
  case left => rw [exec_identify h, s.identityReport_eq]
  case right => rw [exec_status h, s.statusReport_eq]

end Sys2Proof.Machine

/-! The step, the reset values, and the laws at reset. -/

namespace Sys2Proof.Machine

/-- Settles O1: a step reads the queue's front alone. -/
theorem stepTakesTheFrontCommand : Obligations.StepTakesTheFrontCommand := by
  intro c rest s
  constructor <;> rfl

@[simp] theorem reset_pointRec (u : UserPt) : State.reset.pointRec u = PointRec.default := get_replicate _ u
@[simp] theorem reset_groupRec (g : GroupNo) : State.reset.groupRec g = GroupRec.default := get_replicate _ g
@[simp] theorem reset_active (p : Pt) : State.reset.active p = false := get_replicate _ p
@[simp] theorem reset_lineRec (l : LineNo) : State.reset.lineRec l = LineRec.default := get_replicate _ l
@[simp] theorem reset_keyRec (k : KeyNo) : State.reset.keyRec k = KeyRec.default := get_replicate _ k
@[simp] theorem reset_outRec (k : OutNo) : State.reset.snd.outs.get k = OutRec.default := get_replicate _ k
@[simp] theorem reset_notices : State.reset.nt.notices = [] := rfl
@[simp] theorem reset_pendSet : State.reset.nt.pendSet = [] := rfl
@[simp] theorem reset_shelf : State.reset.shelf = [] := rfl

/-- R128: after reset no output line is energized: every mode is OFF and no line inverted. -/
theorem reset_outEnergized (k : OutNo) : State.reset.outEnergized k = false := by
  have hdemand : State.reset.outDemand OutRec.default = false := rfl
  rw [State.outEnergized, reset_outRec, hdemand, show OutRec.default.inverted = false from rfl, bne_self_eq_false,
    Bool.and_false]

/-- A text laid into a row of 20 cells. -/
theorem textRow_toList (t : Text) : (textRow t).toList = (t ++ List.replicate 20 Config.space).take 20 := rfl

/-- R151: below its first row the CONFIG screen is blank. -/
theorem configScreen_row_blank (r : Fin 4) (h : r ≠ 0) : (configScreen.cells.get r).toList = List.replicate 20 0x20 := by
  have hblank : blankRow.toList = List.replicate 20 0x20 := by rw [blankRow, Vector.toList_replicate]; rfl
  have hrow : configScreen.cells.get r = blankRow := by
    fin_cases r
    · exact absurd rfl h
    all_goals rfl
  rw [hrow, hblank]

/-- Settles O2: each item is read off its block's reset value. -/
theorem resetLeavesTheDefaults : Obligations.ResetLeavesTheDefaults := by
  refine ⟨rfl, rfl, reset_pointRec, reset_groupRec, reset_active, rfl, rfl, ?lines, rfl, reset_keyRec, rfl, rfl, rfl, rfl, rfl,
    rfl, rfl, rfl, rfl, fun k => ⟨reset_outRec k, reset_outEnergized k⟩, rfl, rfl, rfl, rfl, rfl, rfl, rfl, rfl, rfl, rfl, rfl,
    rfl, ?first, configScreen_row_blank, fun r => get_replicate _ r, rfl, rfl, rfl, rfl, rfl, rfl, rfl, rfl, rfl, rfl, rfl, rfl,
    by decide, rfl⟩
  case lines =>
    intro l
    rw [reset_lineRec]
    exact ⟨rfl, rfl, rfl, rfl, rfl, rfl, rfl, rfl, rfl, rfl⟩
  case first => exact textRow_toList Config.outOfService

/-- R20, R60: at reset the table is empty and nothing waits, so PANEL OVERFLOW is clear. -/
theorem reset_tableOk : State.reset.TableOk := by
  refine ⟨.nil, .nil, Nat.zero_le _, ?_, ?_, ?_⟩ <;> simp

/-- R121: at reset nothing sounds. -/
theorem reset_steadyPattern : State.reset.steadyPattern = none := rfl

/-- Settles O3: at reset every list is empty, the mode is CONFIG, the link IDLE and the window at the top. -/
theorem resetKeepsEveryLaw : Obligations.ResetKeepsEveryLaw := by
  refine ⟨reset_tableOk, fun _ => ⟨rfl, rfl, rfl⟩, ?service, ?link, ?shelf, Nat.zero_le _, ?chirp, ?parents⟩
  case service => exact ⟨by simp, by simp, by simp⟩
  case link => decide
  case shelf => exact ⟨Nat.zero_le _, .nil, by simp⟩
  case chirp => exact fun _ => reset_steadyPattern
  case parents => intro h; cases h

end Sys2Proof.Machine

/-! Power, reset and the oscillator (R200 to R202). -/

namespace Sys2Proof.Machine

/-- R156, R176, R122, R128, R137, R140: held in reset with the Link and the Sounder at their reset values, the part is silent. -/
theorem heldSilent_of {t : State} (hr : t.inReset = true) (htrans : t.link.trans = none) (hflags : t.link.flags = 0)
    (hhorn : t.snd.horn = false) : HeldSilent t := by
  refine ⟨hr, htrans, misoPin_inReset hr, ?attn, hhorn, ?outs, chainLine_inReset hr, ?panel⟩
  case attn => simp [State.attn, hflags]
  case outs => intro k; simp [State.outEnergized, hr]
  case panel => intro x y; simp [State.panelDot, hr]

/-- R201: every item of a cleared part has its reset value, whatever Mode Control then holds. -/
theorem clearedFrom_withCtl (s : State) {c : Control} (hc : c.mode = .config) : ClearedFrom s (s.cleared.withCtl c) :=
  ⟨rfl, hc, rfl, rfl, rfl, rfl, rfl, rfl, rfl, rfl⟩

/-- R201: what every entry into reset by power-on or RESETN has in common. -/
theorem enterReset_spec (s : State) (f : Control → Control) (hmode : (f { s.ctl with mode := .config }).mode = .config)
    (hheld : (s.enterReset f).inReset = true) :
    ClearedFrom s (s.enterReset f) ∧ HeldSilent (s.enterReset f) ∧ (s.enterReset f).ctl = f { s.ctl with mode := .config } ∧
      (s.enterReset f).link.csnLow = s.link.csnLow ∧ (s.enterReset f).link.muted = s.link.muted :=
  ⟨clearedFrom_withCtl s hmode, heldSilent_of hheld rfl rfl rfl, rfl, rfl, rfl⟩

/-- Settles O10: the three commands enter reset alike, each with its own hold. -/
theorem entryIntoResetClearsThePart : Obligations.EntryIntoResetClearsThePart := by
  intro s
  refine ⟨⟨_, rfl, enterReset_spec s _ rfl rfl⟩, ⟨_, rfl, enterReset_spec s _ rfl rfl⟩,
    ⟨_, rfl, enterReset_spec s _ rfl ?_⟩⟩
  simp [State.enterReset, State.inReset]

/-- R201, R202: RESET_EXIT leaves a held part only with the supply in range, RESETN high and the oscillator running. -/
theorem exec_resetExit_of_mayExit {s : State} (h : s.mayExitReset = true) :
    exec .resetExit s =
      .next (s.enterReset fun c => { c with powerHold := false, pinHold := false, softHold := false }) := by
  show Host.Outcome.next _ = _
  rw [if_pos h]

theorem exec_resetExit_of_not_mayExit {s : State} (h : s.mayExitReset = false) : exec .resetExit s = .next s := by
  show Host.Outcome.next _ = _
  rw [h]
  rfl

/-- R158: a Link at its reset values with nothing taken reports IDLE, no outcome, fresh. -/
theorem statusByte_of_reset_link {t : State} (h : ∃ csnLow muted, t.link = .reset csnLow muted) : t.statusByte = 0x05 := by
  obtain ⟨csnLow, muted, h⟩ := h
  have hattn : t.attn = false := by rw [State.attn, h]; simp [Link.reset]
  rw [State.statusByte, hattn, h]
  show (0 : Byte) <<< 6 ||| 0 <<< 3 ||| 1 <<< 2 ||| 0 <<< 1 ||| 1 = 0x05
  decide

/-- Settles O12: the pin's rise moves the pin alone, and RESET_EXIT enters the reset values without a hold. -/
theorem resetExitEndsTheHold : Obligations.ResetExitEndsTheHold := by
  intro s
  refine ⟨?rise, ?leaves, ?stays⟩
  case rise =>
    intro h
    show Host.Outcome.next _ = _
    rw [if_pos h]
  case leaves =>
    intro hr hs hn ho
    refine ⟨_, exec_resetExit_of_mayExit (by simp [State.mayExitReset, hr, hs, hn, ho]), clearedFrom_withCtl s rfl, rfl, rfl, rfl,
      ?service, statusByte_of_reset_link ⟨_, _, rfl⟩, fun hm => misoPin_muted hm rfl⟩
    exact ho
  case stays =>
    intro h
    apply exec_resetExit_of_not_mayExit
    rcases h with h | h <;> simp [State.mayExitReset, h]

/-- R200: with the oscillator standing the part takes no event. -/
theorem inService_eq_false_of_standing {s : State} (h : s.ctl.oscRunning = false) : s.inService = false := by
  simp [State.inService, h]

end Sys2Proof.Machine

/-! The oscillator (R200) and the host link: the judgement of a transaction (R163), SOFT_RESET (R202), the placement (R165). -/

namespace Sys2Proof.Machine

/-- R200, R201: out of service a command that stands with the oscillator leaves the state, unless it is the exit from reset. -/
theorem exec_out_of_service {s : State} {c : Instr} (h : s.inService = false) (hc : standsStill c = true)
    (hexit : c ≠ .resetExit) : exec c s = .next s := by
  cases c
  case csnFall | transactionEnd | powerOn | supplyFall | resetnFall | resetnRise | oscillatorStop | oscillatorRestart => cases hc
  case resetExit => exact absurd rfl hexit
  case unknownKind k pl => simp [exec, execUnknownKind, request_out _ _ _ _ h]
  case replyPlacement => simp only [exec, execReplyPlacement, h]; split <;> rfl
  case realertExpiry p => simp only [exec, execRealertExpiry, h]; split <;> rfl
  case refreshLatch => simp only [exec, execRefreshLatch, h]; split <;> rfl
  case compositionComplete => simp only [exec, execCompositionComplete, h]; split <;> rfl
  case supervisionExpiry | lineRawChange | lineQualifyExpiry | chatterWindowExpiry | chatterRelease | shelfEntryExpiry
    | keyRawChange | keyDebounceExpiry | keyRepeatExpiry | lampTestExpiry | stepBoundary | chirpBurstEnd | secondsTick
    | scrollHoldExpiry | frameBoundary =>
    simp [exec, execSupervisionExpiry, execLineRawChange, execLineQualifyExpiry, execChatterWindowExpiry, execChatterRelease,
      execShelfEntryExpiry, execKeyRawChange, execKeyDebounceExpiry, execKeyRepeatExpiry, execLampTestExpiry, execStepBoundary,
      execChirpBurstEnd, execSecondsTick, execScrollHoldExpiry, execFrameBoundary, h]
  all_goals exact congrArg Host.Outcome.next (request_out _ _ _ _ h)

/-- Settles O13: with the oscillator standing the part is out of service, and cannot leave reset. -/
theorem everythingStandsWithTheOscillator : Obligations.EverythingStandsWithTheOscillator := by
  intro s c
  refine ⟨?stop, rfl, ?stands⟩
  case stop =>
    intro hpower hpin
    show Host.Outcome.next _ = _
    rw [hpower, hpin]
    rfl
  case stands =>
    intro hosc hc
    by_cases hexit : c = .resetExit
    · subst hexit
      exact exec_resetExit_of_not_mayExit (by simp [State.mayExitReset, hosc])
    · exact exec_out_of_service (inService_eq_false_of_standing hosc) hc hexit

/-- CSN_FALL while the part takes no transaction (R156, R201, R202): the pin falls, and the hold it fell in is kept. -/
theorem exec_csnFall_out {s : State} (h : s.inService = false) (hcsn : s.link.csnLow = false) :
    exec .csnFall s = .next (s.withLink { s.link with csnLow := true, muted := s.ctl.softHold, trans := none }) := by
  simp [exec, execCsnFall, h, hcsn]

/-- R201: in service nothing holds the part. -/
theorem not_inReset_of_inService {s : State} (h : s.inService = true) : s.inReset = false ∧ s.ctl.softHold = false := by
  simp only [State.inService, State.inReset, Bool.and_eq_true, Bool.not_eq_true', Bool.or_eq_false_iff] at h ⊢
  exact ⟨h.1, h.1.2⟩

/-- R161: a reply frame has four bytes beside its payload. -/
theorem ReplyFrame.length_bytes (f : ReplyFrame) : f.bytes.length = 4 + f.payload.length := by
  simp only [ReplyFrame.bytes, withCrc, List.length_append, List.length_cons, List.length_nil]
  omega

/-- R157: behind the status byte come the bytes of the reply carried, and 0x00 where there is none. -/
theorem Transaction.miso_succ (t : Transaction) (i : Nat) :
    t.miso (i + 1) = match t.reply with
      | some f => f.bytes[i]?.getD 0
      | none => 0 := rfl

/-- Settles O15: the fall fixes the bytes of a taken transaction, and MISO reads them bit by bit. -/
theorem csnFallFixesTheMisoBytes : Obligations.CsnFallFixesTheMisoBytes := by
  intro s hcsn
  refine ⟨misoPin_csnHigh hcsn, ?taken, ?untaken, fun v falls hm ht => misoPin_muted hm ht falls, ?reply, ?noReply⟩
  case taken =>
    intro h
    obtain ⟨hreset, hsoft⟩ := not_inReset_of_inService h
    refine ⟨?_, misoPin_taken hreset rfl rfl⟩
    rw [exec_csnFall_inService h hcsn]
    simp [hsoft]
  case untaken => exact fun h => ⟨exec_csnFall_out h hcsn, fun hr => misoPin_inReset hr⟩
  case reply => intro tr f i h; rw [tr.miso_succ, h]; exact ⟨rfl, f.length_bytes⟩
  case noReply => intro tr i h; rw [tr.miso_succ, h]

/-- R163: a judgement reads the Link's state and reply slot alone. -/
theorem Link.judge_congr {k k' : Link} (hstate : k.state = k'.state) (hslot : k.slot = k'.slot) (mosi : List Byte) :
    k.judge mosi = k'.judge mosi := by
  simp [Link.judge, hstate, hslot]

/-- R163: a frame that passes the frame and CRC checks. -/
def FrameSound (mosi : List Byte) : Prop :=
  mosi.getD 0 0 ≠ 0 ∧ (mosi.getD 2 0).toNat ≤ 40 ∧ 4 + (mosi.getD 2 0).toNat ≤ mosi.length ∧
    crc8 (mosi.take (4 + (mosi.getD 2 0).toNat)) = 0

/-- R163: what is left of the judgement of a frame that passes the frame and CRC checks. -/
theorem Link.judge_of_sound {k : Link} {mosi : List Byte} (h : FrameSound mosi) :
    k.judge mosi =
      if mosi.getD 0 0 = softResetKind then .softReset
      else if k.state = .working then .refusedBusy
      else if k.slot.isSome then .refusedUnread
      else .taken { kind := mosi.getD 0 0, tag := mosi.getD 1 0, payload := (mosi.drop 3).take (mosi.getD 2 0).toNat } := by
  obtain ⟨hkind, hn, hlen, hcrc⟩ := h
  unfold Link.judge
  simp only
  rw [if_neg hkind, if_neg (show ¬mosi.length < 4 by omega), if_neg (show ¬Config.maxPayload < _ from not_lt.2 hn),
    if_neg (not_lt.2 hlen), if_neg (not_not.2 hcrc)]

/-- Settles O17: each clause takes the first check that fails, or the judgement of a frame that passes the frame and CRC checks. -/
theorem frameIsJudgedInOrder : Obligations.FrameIsJudgedInOrder := by
  intro k kind rest
  refine ⟨?poll, ?short, ?long, ?cut, ?crc, ?sound⟩
  case poll => intro h; simp [Link.judge, h]
  case short => intro h hlen; unfold Link.judge; rw [if_neg (by exact h), if_pos hlen]
  case long => intro h hlen hn; unfold Link.judge; rw [if_neg (by exact h), if_neg (not_lt.2 hlen), if_pos (show Config.maxPayload < _ from hn)]
  case cut =>
    intro h hlen hn hcut
    unfold Link.judge
    rw [if_neg (by exact h), if_neg (not_lt.2 hlen), if_neg (show ¬Config.maxPayload < _ from not_lt.2 hn), if_pos hcut]
  case crc =>
    intro h hn hlen hcrc
    unfold Link.judge
    rw [if_neg (by exact h), if_neg (by omega), if_neg (show ¬Config.maxPayload < _ from not_lt.2 hn), if_neg (not_lt.2 hlen), if_pos hcrc]
  case sound =>
    intro h hn hlen hcrc
    have hsound : FrameSound (kind :: rest) := ⟨h, hn, hlen, hcrc⟩
    rw [Link.judge_of_sound hsound]
    refine ⟨?reset, ?busy, ?unread, ?taken⟩
    case reset => intro hk; rw [if_pos (by exact hk)]
    case busy => intro hk hs; rw [if_neg (by exact hk), if_pos hs]
    case unread => intro hk hs hslot; rw [if_neg (by exact hk), if_neg hs, if_pos hslot]
    case taken => intro hk hs hslot; rw [if_neg (by exact hk), if_neg hs, if_neg (by simp [hslot])]; rfl

/-- The Link at the CSN rise of a transaction, after the consumption of R166. -/
def Link.risen (k : Link) (consumed : Bool) : Link :=
  { k with csnLow := false, trans := none, muted := false }.consume consumed

/-- TRANSACTION_END on a transaction with a whole byte: the judgement, on the Link as consumption left it. -/
theorem exec_transactionEnd_judged {s : State} {tr : Transaction} {bits stray : List Bool} (hs : s.inService = true)
    (hcsn : s.link.csnLow = true) (htr : s.link.trans = some tr) (hb : wholeBytes bits ≠ []) :
    exec (.transactionEnd bits stray) s =
      .next ((s.withLink (s.link.risen (tr.consumes (wholeBytes bits).length))).endTransaction
        ((s.link.consume (tr.consumes (wholeBytes bits).length)).judge (wholeBytes bits))) := by
  have hj : (s.link.risen (tr.consumes (wholeBytes bits).length)).judge (wholeBytes bits) =
      (s.link.consume (tr.consumes (wholeBytes bits).length)).judge (wholeBytes bits) := by
    apply Link.judge_congr <;> (unfold Link.risen Link.consume; split <;> rfl)
  rw [← hj]
  show Host.Outcome.next _ = _
  rw [hcsn, htr]
  simp [hb, hs, Link.risen]

/-- TRANSACTION_END with no whole byte, or on a transaction that the part did not take: only the pin rises. -/
theorem exec_transactionEnd_unjudged {s : State} {bits stray : List Bool} (hcsn : s.link.csnLow = true)
    (h : wholeBytes bits = [] ∨ s.link.trans = none ∨ s.inService = false) :
    exec (.transactionEnd bits stray) s =
      .next (s.withLink { s.link with csnLow := false, trans := none, muted := false }) := by
  show Host.Outcome.next _ = _
  rw [hcsn]
  cases htr : s.link.trans with
  | none => rfl
  | some tr =>
    have hout : (decide (wholeBytes bits = []) || !s.inService) = true := by
      rcases h with h | h | h
      · simp [h]
      · rw [htr] at h; cases h
      · simp [h]
    simp only [Bool.not_true, Bool.false_eq_true, if_false, hout, if_true]

/-- R160, R162: a request frame, with whatever follows it, passes the frame and CRC checks. -/
theorem frameSound_requestFrame {kind : Byte} (tag : Byte) {payload : List Byte} (filler : List Byte) (hk : kind ≠ 0)
    (hlen : payload.length ≤ 40) : FrameSound (requestFrame kind tag payload ++ filler) := by
  have hn : (byteOf payload.length).toNat = payload.length := byteOf_toNat (by omega)
  have hframe : (requestFrame kind tag payload).length = 4 + payload.length := by
    simp only [requestFrame, withCrc, List.length_append, List.length_cons, List.length_nil]
    omega
  have hget : (requestFrame kind tag payload ++ filler).getD 2 0 = byteOf payload.length := rfl
  refine ⟨hk, ?_, ?_, ?_⟩
  · rw [hget, hn]; exact hlen
  · rw [hget, hn, List.length_append, hframe]; omega
  · rw [hget, hn, ← hframe, List.take_left]; exact crc8_withCrc _

/-- Settles O11: a sound frame of kind 0x7F is judged SOFT_RESET in every link state, and that clears the part. -/
theorem softResetFrameResetsThePart : Obligations.SoftResetFrameResetsThePart := by
  intro s tr tag payload filler bits stray hs hcsn htr hlen hbytes
  have hsound : FrameSound (wholeBytes bits) := hbytes ▸ frameSound_requestFrame tag filler (by decide) hlen
  have hkind : (wholeBytes bits).getD 0 0 = softResetKind := by rw [hbytes]; rfl
  have hne : wholeBytes bits ≠ [] := by rw [hbytes]; exact List.cons_ne_nil _ _
  rw [exec_transactionEnd_judged hs hcsn htr hne, Link.judge_of_sound hsound, if_pos hkind]
  have hrisen (c : Bool) : (s.link.risen c).csnLow = false ∧ (s.link.risen c).muted = false := by cases c <;> exact ⟨rfl, rfl⟩
  have hend (k : Link) : (s.withLink k).endTransaction .softReset = (s.withLink k).softReset := if_pos rfl
  rw [hend]
  exact ⟨_, rfl, clearedFrom_withCtl (s.withLink _) rfl,
    heldSilent_of (by simp [State.softReset, State.inReset]) rfl rfl rfl, rfl, (hrisen _).1, (hrisen _).2⟩

/-- Settles O20: with the taken request's own run at hand the placement is the Link's `place`. -/
theorem placementFillsTheReplySlot : Obligations.PlacementFillsTheReplySlot := by
  intro s x r hs hstate htaken hran hkind hreq
  have hdue : s.link.replyDue = some { result := r.result, tag := x.tag, payload := r.reply } := by
    simp [Link.replyDue, hstate, htaken, hran, hkind, hreq]
  show Host.Outcome.next _ = _
  rw [hdue, hs]
  rfl

end Sys2Proof.Machine

/-! Requests that change nothing which the operator sees or hears, and what the end of their event leaves. -/

namespace Sys2Proof.Machine

/-- The run of an accepted request in service. -/
theorem request_act_replied {s : State} (h : s.inService = true) (kind : Byte) (pl : List Byte) (r : Result) (w : Work) :
    s.request kind pl (.act r w) = (settle s w).replied kind pl r [] := request_act s kind pl r w h

/-- An event without a notification, a request or a candidate for a chirp, that leaves the view and what composition reads. -/
theorem settle_onState_still {s : State} (f : State → State) (hc : (f s).ChirpOk) (hv : s.viewShape = (f s).viewShape)
    (hd : compositionDue s (f s) = false) : settle s (s.work.onState f) = f s :=
  settle_still s _ rfl rfl hv hd (chirpAfter_none (f s) hc)

/-- R55: with no notice live the presented view is empty. -/
theorem presented_of_no_notices {s : State} (h : s.nt.notices = []) : s.presented = [] := by
  simp [State.presented, State.rankList, h, rankSort]

/-- R121: with no notice live no steady pattern applies. -/
theorem steadyPattern_of_no_notices {s : State} (h : s.nt.notices = []) : s.steadyPattern = none := by
  simp [State.steadyPattern, State.soundsAt, h]

/-- R152: with no notice live, only the counts of the Shelf List and the Pending Set, and the window top, can request a
composition. -/
theorem compositionDue_of_no_notices {s t : State} (hs : s.nt.notices = []) (ht : t.nt.notices = [])
    (htop : t.pres.top = s.pres.top) (hshelf : t.shelf.length = s.shelf.length) (hpend : t.nt.pendSet = s.nt.pendSet) :
    compositionDue s t = false := by
  simp [compositionDue, State.viewShape, State.windowShape, State.windowNotices, presented_of_no_notices hs,
    presented_of_no_notices ht, htop, hshelf, hpend]

/-- Settles O27: with no notice live a record is replaced unseen and unheard. -/
theorem writePointInConfigReplacesTheRecord : Obligations.WritePointInConfigReplacesTheRecord := by
  rintro s u r hempty - ⟨hs, hmode⟩ hlabel hchars hlimit
  obtain ⟨hnotices, -, -⟩ := hempty hmode
  have hverdict : writePointVerdict s (pointPayload u r) = .act .ok (s.work.onState fun s => s.putPoint u r) := by
    rw [writePointVerdict, pointLengthOk_pointPayload u r (by omega), parsePoint_pointPayload u r hlabel hchars hlimit,
      lengthThen_true, withArgs_some, hmode]
  have hstill : settle s (s.work.onState fun s => s.putPoint u r) = s.putPoint u r := by
    refine settle_onState_still (fun s => s.putPoint u r) (fun _ => steadyPattern_of_no_notices hnotices) ?_
      (compositionDue_of_no_notices hnotices hnotices rfl rfl rfl)
    rw [State.viewShape, State.viewShape, presented_of_no_notices hnotices, presented_of_no_notices (s := s.putPoint u r) hnotices]
  show Host.Outcome.next _ = _
  rw [hverdict, request_act_replied hs, hstill]
  rfl

/-! ## Keys, message, lamp test, output lines -/

/-- The view, the patterns and what composition reads do not read the Keypad. -/
theorem settle_onKp {s : State} (h : s.ChirpOk) (b : Keypad) : settle s (s.work.onState fun v => v.withKp b) = s.withKp b :=
  settle_onState_still (fun v => v.withKp b) h rfl (compositionDue_self s)

/-- Nor do they read the output lines. -/
theorem settle_putOut {s : State} (h : s.ChirpOk) (k : OutNo) (r : OutRec) (f : State → State) (hf : f s = s.putOut k r) :
    settle s (s.work.onState f) = s.putOut k r := by
  have hstill : settle s (s.work.onState fun v => v.putOut k r) = s.putOut k r :=
    settle_onState_still (fun v => v.putOut k r) h rfl (compositionDue_self s)
  rw [← hstill]
  simp only [Work.onState, State.work_st, hf]

/-- An event that leaves the view and requests a composition of its own: the composer starts, or takes the dirty mark. -/
theorem settle_composing {b : State} {w : Work} (hn : w.notify = false) (hc : w.compose = true)
    (hv : b.viewShape = w.st.viewShape) (hb : w.st.chirpAfter (w.alerts ++ w.chirps) = w.st.snd.chirp) :
    settle b w = w.st.requestComposition := by
  have hchirp : w.st.requestComposition.chirpAfter (w.alerts ++ w.chirps) = w.st.chirpAfter (w.alerts ++ w.chirps) := by
    rw [requestComposition_eq]; rfl
  have hsnd : w.st.requestComposition.snd = w.st.snd := by rw [requestComposition_eq]; rfl
  unfold settle
  simp only [hn, hc, hv, ne_eq, not_true_eq_false, decide_false, Bool.or_self, Bool.false_and, Bool.false_eq_true, if_false,
    Bool.or_true, Bool.true_or, if_true, hchirp, hb, hsnd]
  rw [← hsnd]
  rfl

/-- R153: an idle or ready composer starts a composition. -/
theorem requestComposition_starts {s : State} (h : s.pres.composer = .idle ∨ s.pres.composer = .ready) :
    s.requestComposition = s.withPres { s.pres with composer := .composing s.snapshot } := by
  unfold State.requestComposition
  rcases h with h | h <;> rw [h]

/-- R153: one that is composing takes the dirty mark. -/
theorem requestComposition_marks {s : State} (hidle : s.pres.composer ≠ .idle) (hready : s.pres.composer ≠ .ready) :
    s.requestComposition = s.withPres { s.pres with dirty := true } := by
  unfold State.requestComposition
  split
  · next h => exact absurd h hidle
  · next h => exact absurd h hready
  · rfl

/-- The view does not read the message. -/
theorem exec_setMessage {s : State} (hchirp : s.ChirpOk) (hs : s.inService = true) {text : Text} (hlen : text.length ≤ 20)
    (hchars : text.all printable = true) :
    exec (.setMessage text) s =
      .next ((s.withPres { s.pres with message := text }).requestComposition.replied 0x34 text .ok []) := by
  have hsettle : settle s (s.work.writeMessage text) = (s.withPres { s.pres with message := text }).requestComposition :=
    settle_composing (w := s.work.writeMessage text) rfl rfl rfl (chirpAfter_none _ hchirp)
  show Host.Outcome.next _ = _
  rw [decide_eq_true hlen, parseText_some (Nat.zero_le _) hlen hchars, lengthThen_true, withArgs_some,
    request_act_replied hs, hsettle]

theorem exec_lampTest {s : State} (hs : s.inService = true) :
    exec (.lampTest []) s = .next ((settle s (s.work.onState State.startLampTest)).replied 0x36 [] .ok []) :=
  congrArg Host.Outcome.next (request_act_replied hs ..)

/-- R115: a lamp test that starts, seen by no part of an event's end. -/
theorem settle_startLampTest_idle {s : State} (h : s.ChirpOk) (ht : s.kp.testRunning = false) :
    settle s (s.work.onState State.startLampTest) = s.withKp { s.kp with testRunning := true, testLeft := 8 } := by
  have hstart : s.startLampTest = s.withKp { s.kp with testRunning := true, testLeft := 8 } := by simp [State.startLampTest, ht]
  rw [← settle_onKp h]
  simp only [Work.onState, State.work_st, hstart]

/-- R115: one that runs goes on as it stood. -/
theorem settle_startLampTest_running {s : State} (h : s.ChirpOk) (ht : s.kp.testRunning = true) :
    settle s (s.work.onState State.startLampTest) = s := by
  have hstart : s.startLampTest = s.withKp s.kp := by simp [State.startLampTest, ht]
  have hkp := settle_onKp h s.kp
  simp only [Work.onState, State.work_st, hstart, State.withKp_self] at hkp ⊢
  exact hkp

/-- Settles O35: the lock and the lamp test are seen by no part of the event's end, the message by the composer alone. -/
theorem keyLockMessageAndLampTest : Obligations.KeyLockMessageAndLampTest := by
  intro s m text hchirp hs
  refine ⟨?lock, ?starts, ?runs, ?message⟩
  case lock =>
    show Host.Outcome.next _ = _
    rw [parseLock_setWidth]
    exact congrArg _ ((request_act_replied hs ..).trans (congrArg (State.replied · ..) (settle_onKp hchirp _)))
  case starts => intro ht; rw [exec_lampTest hs, settle_startLampTest_idle hchirp ht]
  case runs => intro ht; rw [exec_lampTest hs, settle_startLampTest_running hchirp ht]
  case message =>
    intro hlen hchars
    refine ⟨_, exec_setMessage hchirp hs hlen hchars, ?_, ?_, ?_⟩
    · rw [requestComposition_eq]
      unfold State.requestComposition
      cases h : (s.withPres { s.pres with message := text }).pres.composer <;> rfl
    · intro h
      rw [requestComposition_starts (by exact h)]
      exact ⟨rfl, rfl⟩
    · intro hidle hready
      rw [requestComposition_marks (by exact hidle) (by exact hready)]
      exact ⟨rfl, rfl⟩

theorem exec_writeOutput {s : State} (hchirp : s.ChirpOk) (hs : s.inService = true) {a : OutWrite}
    (ha : a.mode.paramOk a.param = true) :
    exec (.writeOutput a.payload) s = .next ((s.writeOut a).replied 0x18 a.payload .ok []) := by
  show Host.Outcome.next _ = _
  rw [parseOut_payload a ha, withArgs_some]
  exact congrArg _ ((request_act_replied hs ..).trans (congrArg (State.replied · ..) (settle_putOut hchirp _ _ _ rfl)))

theorem exec_setOutput {s : State} (hchirp : s.ChirpOk) (hs : s.inService = true) (k : OutNo) (v : Bool) :
    exec (.setOutput [byteOf k.val, bit v]) s =
      .next ((s.putOut k { s.snd.outs.get k with hostValue := v }).replied 0x35 [byteOf k.val, bit v] .ok []) := by
  show Host.Outcome.next _ = _
  rw [parseSetOut_payload, withArgs_some]
  exact congrArg _ ((request_act_replied hs ..).trans (congrArg (State.replied · ..) (settle_putOut hchirp _ _ _ rfl)))

/-- R3: a point that is no user point is one of the two system points. -/
theorem userOf_eq_none_iff (p : Pt) : userOf p = none ↔ p = hostSilent ∨ p = panelOverflow := by
  unfold userOf
  rw [dite_eq_right_iff]
  constructor
  · intro h
    have hge : ¬p.val < 128 := fun hlt => absurd (h hlt) (by simp)
    have : p.val = 128 ∨ p.val = 129 := by omega
    exact this.imp Fin.ext Fin.ext
  · rintro (rfl | rfl) h
    · exact absurd h (by decide)
    · exact absurd h (by decide)

/-- R129: the phases that an UNACK output line counts. -/
theorem Phase.unack_iff (p : Phase) : p.unack = true ↔ p ≠ .standing := by cases p <;> simp [Phase.unack]

/-- R129: the demand of an output line by its mode. -/
theorem State.outDemand_iff (s : State) (o : OutRec) :
    s.outDemand o = true ↔
      match o.mode with
      | .off => False
      | .unack => ∃ n ∈ s.presented, o.param ≤ n.level ∧ n.phase ≠ .standing
      | .active => ∃ n ∈ s.presented, o.param ≤ n.level ∧ s.active n.point = true
      | .horn => s.hornPattern ≠ .silent
      | .group => ∃ n ∈ s.nt.notices, (∃ g, s.groupOf n.point = some g ∧ g.val = o.param) ∧ s.active n.point = true
      | .system => ∃ n ∈ s.nt.notices, n.point = hostSilent ∨ n.point = panelOverflow
      | .host => o.hostValue = true := by
  cases h : o.mode <;> simp [State.outDemand, h, Phase.unack_iff, userOf_eq_none_iff]

/-- R128: outside reset an output line is energized if its demand differs from its inversion. -/
theorem State.outEnergized_iff (s : State) (hr : s.inReset = false) (k : OutNo) :
    s.outEnergized k = true ↔ (s.outDemand (s.snd.outs.get k) = true ↔ (s.snd.outs.get k).inverted = false) := by
  rw [State.outEnergized, hr, Bool.not_false, Bool.true_and]
  cases s.outDemand (s.snd.outs.get k) <;> cases (s.snd.outs.get k).inverted <;> decide

/-- Settles O34: both requests write one output line; its level is the demand, turned by the inversion. -/
theorem outputLinesFollowTheirRecords : Obligations.OutputLinesFollowTheirRecords := by
  intro s a k v
  refine ⟨fun hchirp hs ha => exec_writeOutput hchirp hs ha, fun hchirp hs => exec_setOutput hchirp hs k v, ?level⟩
  case level => exact fun hr => (s.outEnergized_iff hr k).trans (iff_congr (s.outDemand_iff _) Iff.rfl)

/-! ## The checks of RAISE -/

/-- R182: a payload of RAISE has 2 to 8 bytes. -/
theorem length_raisePayload (u : UserPt) {f : NoticeField} (h : f.ok = true) :
    2 ≤ (raisePayload u f).length ∧ (raisePayload u f).length ≤ 8 := by
  obtain ⟨hlo, hhi⟩ := NoticeField.bytes_length h
  simp only [raisePayload, List.length_cons]
  omega

/-- R7: what is left of RAISE in RUN once its arguments are read. -/
theorem raiseVerdict_raisePayload {s : State} (hm : s.ctl.mode = .run) (u : UserPt) {f : NoticeField} (h : f.ok = true) :
    raiseVerdict s (raisePayload u f) =
      if !s.linkSourced u then .refuse .sourceConflict
      else if !s.groupEnabled u then .refuse .groupDisabled
      else if (s.notice? (UserPt.pt u)).isNone && s.tableFull then .refuse .tableFull
      else .act (s.raiseResult u) (s.work.hostRaise u f) := by
  obtain ⟨hlo, hhi⟩ := length_raisePayload u h
  rw [raiseVerdict, inMode_same s .run _ hm, parseRaise_raisePayload u f h, decide_eq_true hlo, decide_eq_true hhi]
  rfl

/-- R7: a RAISE in RUN that a check refuses. -/
theorem exec_raise_refused {s : State} (h : s.inService = true) {pl : List Byte} {r : Result}
    (hv : raiseVerdict s pl = .refuse r) : exec (.raise pl) s = .next (s.replied 0x20 pl r []) := by
  show Host.Outcome.next _ = _
  rw [hv]
  exact congrArg _ (request_answer s 0x20 pl r [] h)

/-- R2: a point that a line binds is not link-sourced. -/
theorem linkSourced_eq_true_iff (s : State) (u : UserPt) : s.linkSourced u = true ↔ s.bindingLine u = none := by
  simp [State.linkSourced]

/-- Settles O36: the checks stand in RAISE's verdict in this order. -/
theorem raiseIsCheckedInOrder : Obligations.RaiseIsCheckedInOrder := by
  rintro s u f pl ⟨hs, hm⟩
  refine ⟨?argument, ?source, ?group, ?full⟩
  case argument =>
    intro hlo hhi hparse
    apply exec_raise_refused hs
    rw [raiseVerdict, inMode_same s .run _ hm, hparse, decide_eq_true hlo, decide_eq_true hhi]
    rfl
  case source =>
    intro hf hbound
    apply exec_raise_refused hs
    rw [raiseVerdict_raisePayload hm u hf, if_pos]
    simpa using (not_congr (linkSourced_eq_true_iff s u)).2 hbound
  case group =>
    intro hf hbound hgroup
    apply exec_raise_refused hs
    rw [raiseVerdict_raisePayload hm u hf, (linkSourced_eq_true_iff s u).2 hbound, show s.groupEnabled u = false from hgroup]
    rfl
  case full =>
    intro hf hbound hgroup hnone hfull
    apply exec_raise_refused hs
    rw [raiseVerdict_raisePayload hm u hf, (linkSourced_eq_true_iff s u).2 hbound, show s.groupEnabled u = true from hgroup,
      hnone, show s.tableFull = true from decide_eq_true hfull]
    rfl

end Sys2Proof.Machine

/-! The reports of records (R18, R89, R183). -/

namespace Sys2Proof.Machine

/-- The run of a report of one record: its one byte names the record. -/
theorem request_report_one {s : State} (h : s.inService = true) (kind : Byte) {n : Nat} (hn : n ≤ 256) (i : Fin n)
    (report : Fin n → List Byte) :
    s.request kind [byteOf i.val]
        (lengthThen ([byteOf i.val].length = 1) <| withArgs (parseOne n [byteOf i.val]) fun i => .answer .ok (report i)) =
      s.replied kind [byteOf i.val] .ok (report i) := by
  rw [parseOne_byteOf i hn]
  exact request_answer s kind _ .ok _ h

theorem exec_readPoint {s : State} (h : s.inService = true) (p : Pt) :
    exec (.readPoint [byteOf p.val]) s = .next (s.replied 0x11 [byteOf p.val] .ok (s.pointReport p)) :=
  congrArg Host.Outcome.next (request_report_one h 0x11 (by decide) p s.pointReport)

theorem exec_readGroup {s : State} (h : s.inService = true) (g : GroupNo) :
    exec (.readGroup [byteOf g.val]) s = .next (s.replied 0x13 [byteOf g.val] .ok (s.groupReport g)) :=
  congrArg Host.Outcome.next (request_report_one h 0x13 (by decide) g s.groupReport)

theorem exec_readLine {s : State} (h : s.inService = true) (l : LineNo) :
    exec (.readLine [byteOf l.val]) s = .next (s.replied 0x15 [byteOf l.val] .ok (s.lineReport l)) :=
  congrArg Host.Outcome.next (request_report_one h 0x15 (by decide) l s.lineReport)

/-- Settles O24: each report is the row of its record's fields. -/
theorem recordReportsReadTheRecords : Obligations.RecordReportsReadTheRecords := by
  intro s h
  refine ⟨exec_readPoint h, ?silent, ?overflow, exec_readGroup h, exec_readLine h, ?panel⟩
  case silent => exact exec_readPoint h hostSilent
  case overflow => exact exec_readPoint h panelOverflow
  case panel => exact congrArg Host.Outcome.next (request_answer s 0x17 [] .ok _ h)

end Sys2Proof.Machine

/-! Samples of lines and keys (R90, R105, R208). -/

namespace Sys2Proof.Machine

/-- A line or key record written back as it stood. -/
theorem putLine_self (s : State) (l : LineNo) : s.putLine l (s.lineRec l) = s := by
  have hset : s.lq.lines.set l.val (s.lineRec l) = s.lq.lines := Vector.set_getElem_self _
  rw [State.putLine, hset]
  rfl

theorem putKey_self (s : State) (k : KeyNo) : s.putKey k (s.keyRec k) = s := by
  have hset : s.kp.keys.set k.val (s.keyRec k) = s.kp.keys := Vector.set_getElem_self _
  rw [State.putKey, hset]
  rfl

/-- R90: a sample that reads as the previous one is no raw change. -/
theorem LineRec.sampled_same {r : LineRec} {pin : PinLevel} (h : r.read pin = r.sample) : r.sampled pin = r := if_pos h

/-- R90, R91: a sample that reads otherwise is a raw change. -/
theorem LineRec.sampled_new {r : LineRec} {pin : PinLevel} (h : r.read pin ≠ r.sample) :
    r.sampled pin = { r with sample := r.read pin }.rawChange (r.read pin) := if_neg h

theorem KeyRec.sampled_same {r : KeyRec} {pin : PinLevel} (h : r.read pin = r.sample) : r.sampled pin = r := if_pos h

theorem KeyRec.sampled_new {r : KeyRec} {pin : PinLevel} (h : r.read pin ≠ r.sample) :
    r.sampled pin = { r with sample := r.read pin }.rawChange (r.read pin) := if_neg h

/-- R87, R208: what a pin reads as, by its level. -/
theorem LineRec.read_eq (r : LineRec) (pin : PinLevel) :
    r.read pin = match pin with
      | .low => decide (r.polarity = .normal)
      | .high => decide (r.polarity = .inverted)
      | .mid => r.sample := by
  cases pin <;> cases h : r.polarity <;> simp [LineRec.read, h]

/-- R105, R208: what a pin gives a key, by its level. -/
theorem KeyRec.read_eq (r : KeyRec) (pin : PinLevel) :
    r.read pin = match pin with
      | .low => true
      | .high => false
      | .mid => r.sample := rfl

theorem exec_lineRawChange {s : State} (h : s.inService = true) (l : LineNo) (pin : PinLevel) :
    exec (.lineRawChange l pin) s = .next (s.putLine l ((s.lineRec l).sampled pin)) := congrArg Host.Outcome.next (if_pos h)

theorem exec_keyRawChange {s : State} (h : s.inService = true) (k : KeyNo) (pin : PinLevel) :
    exec (.keyRawChange k pin) s = .next (s.putKey k ((s.keyRec k).sampled pin)) := congrArg Host.Outcome.next (if_pos h)

/-- A raw change of a line, from what its pin reads as. -/
theorem exec_lineRawChange_new {s : State} (h : s.inService = true) {l : LineNo} {pin : PinLevel} {raw : Bool}
    (hr : (s.lineRec l).read pin = raw) (hs : (s.lineRec l).sample = !raw) :
    exec (.lineRawChange l pin) s = .next (s.putLine l ({ s.lineRec l with sample := raw }.rawChange raw)) := by
  rw [exec_lineRawChange h, LineRec.sampled_new (by rw [hr, hs]; cases raw <;> decide), hr]

/-- A raw change of a key, from what its pin reads as. -/
theorem exec_keyRawChange_new {s : State} (h : s.inService = true) {k : KeyNo} {pin : PinLevel} {raw : Bool}
    (hr : (s.keyRec k).read pin = raw) (hs : (s.keyRec k).sample = !raw) :
    exec (.keyRawChange k pin) s = .next (s.putKey k ({ s.keyRec k with sample := raw }.rawChange raw)) := by
  rw [exec_keyRawChange h, KeyRec.sampled_new (by rw [hr, hs]; cases raw <;> decide), hr]

/-- Settles O50: a sample that reads as the last one leaves the record; another is the raw change of its state. -/
theorem rawChangesDriveTheQualification : Obligations.RawChangesDriveTheQualification := by
  intro s l k pin h
  have hline := (s.lineRec l).read_eq pin
  have hkey := (s.keyRec k).read_eq pin
  refine ⟨fun hsame => ?lineSame, fun hr hs hst => ?_, fun hr hs hst => ?_, fun hr hs hst => ?_, fun hr hs hst => ?_,
    fun hsame => ?keySame, fun hr hs hst => ?_, fun hr hs hst => ?_, fun hr hs hst => ?_, fun hr hs hst => ?_⟩
  case lineSame => rw [exec_lineRawChange h, LineRec.sampled_same (hline.trans hsame), putLine_self]
  case keySame => rw [exec_keyRawChange h, KeyRec.sampled_same (hkey.trans hsame), putKey_self]
  iterate 4 (rw [exec_lineRawChange_new h (hline.trans hr) hs]; simp only [LineRec.rawChange, hst]; rfl)
  iterate 4 (rw [exec_keyRawChange_new h (hkey.trans hr) hs]; simp only [KeyRec.rawChange, hst]; rfl)

end Sys2Proof.Machine

/-! The debounce of a key (R106, R108, R109, R115). -/

namespace Sys2Proof.Machine

theorem exec_keyDebounce_breaking {s : State} (h : s.inService = true) {k : KeyNo} (hk : (s.keyRec k).state = .breaking) :
    exec (.keyDebounceExpiry k) s = .next (s.putKey k { s.keyRec k with state := .open, repeatTimer := none }) := by
  show Host.Outcome.next _ = _
  rw [h, hk]
  rfl

/-- The press of a key whose debounce ends: its record, before the press is taken. -/
def State.pressed (s : State) (k : KeyNo) : State :=
  s.putKey k { s.keyRec k with
    state := .made
    repeatTimer := if (keyNamed k).repeats then some 600 else (s.keyRec k).repeatTimer }

theorem exec_keyDebounce_making {s : State} (h : s.inService = true) {k : KeyNo} (hk : (s.keyRec k).state = .making) :
    exec (.keyDebounceExpiry k) s = .next ((s.pressed k).takePress k) := by
  show Host.Outcome.next _ = _
  rw [h, hk]
  rfl

/-- R109: an ignored press has no effect; one that acts is an event. -/
theorem takePress_ignored {s : State} {k : KeyNo} (h : s.pressActs k = false) : s.takePress k = s := by
  rw [State.takePress, h]
  rfl

theorem takePress_acts {s : State} {k : KeyNo} (h : s.pressActs k = true) :
    s.takePress k = settle s (s.work.press (keyNamed k)) := if_pos h

/-- R109: the three checks of a press. -/
theorem pressActs_iff (s : State) (k : KeyNo) :
    s.pressActs k = true ↔
      s.kp.testRunning = false ∧ s.kp.lock.getLsbD k.val = false ∧ (s.ctl.mode = .run ∨ k = 3) := by
  have hkey : keyNamed k = .test ↔ k = 3 := by revert k; decide
  simp [State.pressActs, hkey, and_assoc]

/-- R109: the checks do not read the key records. -/
@[simp] theorem pressActs_putKey (s : State) (k j : KeyNo) (r : KeyRec) : (s.putKey k r).pressActs j = s.pressActs j := rfl

/-- R105, R108: UP and DOWN alone repeat. -/
theorem repeats_keyNamed (k : KeyNo) : (keyNamed k).repeats = true ↔ k = 4 ∨ k = 5 := by revert k; decide

/-- R108: the repeat timer of a key whose press has qualified. -/
theorem pressed_eq (s : State) (k : KeyNo) :
    s.pressed k = s.withKp { s.kp with
      keys := s.kp.keys.set k.val { s.keyRec k with
        state := .made, repeatTimer := if k = 4 ∨ k = 5 then some 600 else (s.keyRec k).repeatTimer } } := by
  simp only [State.pressed, repeats_keyNamed]
  rfl

/-- Settles O54: the press qualifies the key; what else it does is left to `pressActs` and, for TEST, to the lamp test. -/
theorem keyDebounceTakesThePress : Obligations.KeyDebounceTakesThePress := by
  intro s k hchirp h
  refine ⟨exec_keyDebounce_breaking h, ?ignored, ?test⟩
  case ignored =>
    intro hk hwhy
    have hacts : (s.pressed k).pressActs k = false := by
      rw [State.pressed, pressActs_putKey, Bool.eq_false_iff, ne_eq, pressActs_iff]
      rintro ⟨htest, hlock, hmode⟩
      rcases hwhy with hwhy | hwhy | ⟨hconfig, hne⟩
      · rw [hwhy] at htest; cases htest
      · rw [hwhy] at hlock; cases hlock
      · rcases hmode with hrun | heq
        · rw [hconfig] at hrun; cases hrun
        · exact hne heq
    rw [exec_keyDebounce_making h hk, takePress_ignored hacts, pressed_eq]
  case test =>
    rintro hk htest hlock rfl
    have hacts : (s.pressed 3).pressActs 3 = true := (pressActs_iff s 3).2 ⟨htest, hlock, .inr rfl⟩
    rw [exec_keyDebounce_making h hk, takePress_acts hacts]
    exact congrArg _ ((settle_startLampTest_idle (s := s.pressed 3) hchirp htest).trans (by rw [pressed_eq]))

end Sys2Proof.Machine

/-! The time base (R122, R124, R134, R137, R200). -/

namespace Sys2Proof.Machine

/-- R200: a tick takes a second from a countdown that has two or more, and marks another as run out (log 3). -/
theorem Countdown.tick_eq (c : Countdown) :
    c.tick = if 2 ≤ c.left then { left := c.left - 1, due := c.due } else { left := c.left, due := true } := rfl

/-- Settles O59: each of the four ends is one field; the tick maps every countdown. -/
theorem timeMovesCountdownsAndEnds : Obligations.TimeMovesCountdownsAndEnds := by
  intro s h
  refine ⟨?latch, ?burst, ?lamp, ?tick⟩
  case latch =>
    intro v hv
    simp only [exec, execRefreshLatch, hv, h, if_true, latched_eq]
  case burst =>
    intro hchirp
    simp only [exec, execChirpBurstEnd, hchirp, h, decide_true, Bool.and_self, if_true]
  case lamp =>
    intro ht
    simp only [exec, execLampTestExpiry, h, ht, Bool.and_self, if_true]
  case tick =>
    refine ⟨_, congrArg Host.Outcome.next (if_pos h), rfl, rfl, rfl, rfl, rfl, rfl, rfl, rfl, fun l => ?_, rfl, rfl⟩
    exact get_vmap _ _ l

/-- R122: whether the horn is on in a step, pattern by pattern. -/
theorem HornPattern.onIn_iff (p : HornPattern) (step : Fin 8) (odd chirpStep : Bool) :
    p.onIn step odd chirpStep = true ↔
      match p with
      | .continuous => True
      | .pulse => step.val ≤ 3
      | .beat => step.val ≤ 1
      | .ringbackTone => step.val = 0 ∧ odd = false
      | .chirp => chirpStep = true
      | .silent => False := by
  cases p <;> simp [HornPattern.onIn]

/-- R135: whether a pattern is lit in a step, pattern by pattern. -/
theorem Pattern.litIn_iff (p : Pattern) (step : Fin 8) :
    p.litIn step = true ↔
      match p with
      | .fast => step.val % 2 = 0
      | .slow => step.val ≤ 3
      | .wink => step.val ≤ 1
      | .steady => True
      | .off => False := by
  cases p <;> simp [Pattern.litIn]

/-- R124: the steps that begin in a burst are its first three. -/
theorem chirpStepBegins_iff (c : Option Nat) : chirpStepBegins c = true ↔ c = some 0 ∨ c = some 1 ∨ c = some 2 := by
  cases c with
  | none => simp [chirpStepBegins]
  | some k =>
    simp only [chirpStepBegins, Option.any_some, decide_eq_true_eq, Option.some.injEq]
    omega

/-- R137: the values that a refresh samples. -/
theorem get_sampleTiles (s : State) (step : Fin 8) (t : TileNo) : (s.sampleTiles step).get t = s.tileLit step t := by
  simp [State.sampleTiles, Vector.get_eq_getElem]

theorem exec_stepBoundary {s : State} (h : s.inService = true) :
    exec .stepBoundary s = .next ((s.withSnd s.sounderAtBoundary).withPres s.presentationAtBoundary) :=
  congrArg Host.Outcome.next (if_pos h)

/-- Settles O57: the boundary's Sounder and Presentation, clause by clause. -/
theorem stepBoundaryPlaysTheCadence : Obligations.StepBoundaryPlaysTheCadence := by
  intro s h
  refine ⟨_, exec_stepBoundary h, rfl, ?horn, ?idle, ?counts, ?past, ⟨_, rfl, ?tiles⟩, ⟨_, rfl, ?chain⟩⟩
  case horn =>
    refine (HornPattern.onIn_iff _ _ _ _).trans ?_
    rw [chirpStepBegins_iff]
    rfl
  case idle => intro hc; simp [State.sounderAtBoundary, chirpAtBoundary, hc]
  case counts => intro j hc hj; simp [State.sounderAtBoundary, chirpAtBoundary, hc, hj]
  case past => intro j hc hj; simp [State.sounderAtBoundary, chirpAtBoundary, hc, not_lt.2 hj]
  case tiles =>
    intro n
    rw [get_sampleTiles, State.tileLit, Bool.or_eq_true, Pattern.litIn_iff]
    rfl
  case chain =>
    intro n clock hn
    have hreset := (not_inReset_of_inService h).1
    rw [chainLine_data (tiles := s.sampleTiles (s.pres.step + 1)) (by exact hreset) rfl clock]
    congr 1
    ext
    show 47 - clock.val = n.val
    omega

end Sys2Proof.Machine

/-! Which notices sound (R119), the derived horn pattern (R121) and the pattern of a tile (R136). -/

namespace Sys2Proof.Machine

/-- The phases of an unacknowledged notice (R38, R42, R83). -/
theorem Phase.unseen_iff (p : Phase) : p.unseen = true ↔ p = .alert ∨ p = .fleeting := by cases p <;> simp [Phase.unseen]

/-- R110, R190: what an ack of scope all reaches. -/
theorem State.ackable_iff (s : State) (n : Notice) :
    s.ackable n = true ↔
      n.phase = .alert ∨ n.phase = .fleeting ∨ (n.phase = .returned ∧ s.seqOf n.point = .ringback) := by
  simp [State.ackable, Phase.unseen_iff, or_assoc]

/-- R119: when a live notice sounds. -/
theorem State.sounding_iff {s : State} {n : Notice} (h : n ∈ s.nt.notices) :
    s.sounding n = true ↔
      n ∈ s.presented ∧ s.classOf n.point ≠ .indication ∧ s.snd.floor ≤ n.level ∧ n.silenced = false ∧
      (n.phase = .alert ∨ n.phase = .fleeting ∨ (n.phase = .returned ∧ s.seqOf n.point = .ringback)) := by
  simp only [State.sounding, Bool.and_eq_true, Bool.not_eq_true', decide_eq_true_eq, mem_presented, h, true_and,
    State.ackable_iff, and_assoc]

/-- R121, cases 1 to 3: a notice in ALERT or FLEETING sounds at a level. -/
theorem State.soundsAt_iff (s : State) (level : Nat) :
    s.soundsAt level = true ↔
      ∃ x ∈ s.nt.notices, s.sounding x = true ∧ x.level = level ∧ (x.phase = .alert ∨ x.phase = .fleeting) := by
  simp [State.soundsAt, Phase.unseen_iff, and_assoc]

/-- R121, case 4: a notice in RETURNED sounds. -/
def State.ringsBack (s : State) : Bool := s.nt.notices.any fun n => s.sounding n && n.phase = .returned

theorem State.ringsBack_iff (s : State) :
    s.ringsBack = true ↔ ∃ x ∈ s.nt.notices, s.sounding x = true ∧ x.phase = .returned := by
  simp [State.ringsBack]

/-- R121: the six cases, in their order. -/
theorem State.hornPattern_eq (s : State) :
    s.hornPattern =
      if s.soundsAt 4 then .continuous
      else if s.soundsAt 3 then .pulse
      else if s.soundsAt 2 then .beat
      else if s.ringsBack then .ringbackTone
      else if s.snd.chirp.isSome then .chirp
      else .silent := by
  unfold State.hornPattern State.steadyPattern
  rw [← State.ringsBack]
  cases s.soundsAt 4
  case true => rfl
  cases s.soundsAt 3
  case true => rfl
  cases s.soundsAt 2
  case true => rfl
  cases s.ringsBack <;> rfl

/-- R135: the more urgent of two patterns, the first of two alike. -/
def Pattern.moreUrgent (best p : Pattern) : Pattern := if p.urgency < best.urgency then p else best

theorem Pattern.urgency_injective : Function.Injective Pattern.urgency := by
  intro p q h
  cases p <;> cases q <;> first | rfl | cases h

theorem Pattern.urgency_le_off (p : Pattern) : p.urgency ≤ Pattern.off.urgency := by cases p <;> decide

/-- R135, R136: the most urgent of a list of patterns is one of them, and none is more urgent. -/
theorem foldl_moreUrgent (l : List Pattern) (best : Pattern) :
    (l.foldl Pattern.moreUrgent best = best ∨ l.foldl Pattern.moreUrgent best ∈ l) ∧
      (l.foldl Pattern.moreUrgent best).urgency ≤ best.urgency ∧
      ∀ p ∈ l, (l.foldl Pattern.moreUrgent best).urgency ≤ p.urgency := by
  induction l generalizing best with
  | nil => simp
  | cons q rest ih =>
    obtain ⟨hmem, hbest, hrest⟩ := ih (best.moreUrgent q)
    rw [List.foldl_cons]
    have hq : (best.moreUrgent q = q ∧ q.urgency < best.urgency) ∨ (best.moreUrgent q = best ∧ best.urgency ≤ q.urgency) := by
      unfold Pattern.moreUrgent
      split
      case isTrue h => exact .inl ⟨rfl, h⟩
      case isFalse h => exact .inr ⟨rfl, not_lt.1 h⟩
    obtain ⟨he, hu⟩ | ⟨he, hu⟩ := hq <;> rw [he] at hmem hbest hrest ⊢
    · refine ⟨.inr ?_, by omega, ?_⟩
      · rcases hmem with h | h
        · rw [h]; exact List.mem_cons_self ..
        · exact List.mem_cons_of_mem _ h
      · intro p hp
        rcases List.mem_cons.1 hp with rfl | hp
        · exact hbest
        · exact hrest p hp
    · refine ⟨hmem.imp_right (List.mem_cons_of_mem _), hbest, ?_⟩
      intro p hp
      rcases List.mem_cons.1 hp with rfl | hp
      · omega
      · exact hrest p hp

/-- R136: the patterns that the presented notices ask of a tile. -/
def State.asksOf (s : State) (t : TileNo) : List Pattern :=
  (s.presented.filter fun n => s.tileOf n.point = some t).map Notice.pattern

theorem State.mem_asksOf (s : State) (t : TileNo) (q : Pattern) :
    q ∈ s.asksOf t ↔ ∃ x ∈ s.presented, s.tileOf x.point = some t ∧ x.pattern = q := by
  simp [State.asksOf, and_assoc]

theorem State.tilePattern_eq_foldl (s : State) (t : TileNo) : s.tilePattern t = (s.asksOf t).foldl Pattern.moreUrgent .off := by
  rw [State.asksOf, List.foldl_map]
  rfl

/-- R136: the pattern of a tile is the most urgent that is asked of it. -/
theorem State.tilePattern_eq_of_asked {s : State} {t : TileNo} {q : Pattern} (hq : q ∈ s.asksOf t)
    (hmost : ∀ p : Pattern, p.urgency < q.urgency → p ∉ s.asksOf t) : s.tilePattern t = q := by
  rw [s.tilePattern_eq_foldl t]
  obtain ⟨hmem, -, hle⟩ := foldl_moreUrgent (s.asksOf t) .off
  have hqu := hle q hq
  apply Pattern.urgency_injective
  rcases hmem with h | h
  · rw [h] at hqu ⊢
    exact le_antisymm hqu q.urgency_le_off
  · exact le_antisymm hqu (not_lt.1 fun hlt => hmost _ hlt h)

/-- R136: a tile of which nothing is asked is OFF. -/
theorem State.tilePattern_eq_off {s : State} {t : TileNo} (h : ∀ p : Pattern, p ≠ .off → p ∉ s.asksOf t) :
    s.tilePattern t = .off := by
  rw [s.tilePattern_eq_foldl t]
  obtain ⟨hmem, -⟩ := foldl_moreUrgent (s.asksOf t) .off
  rcases hmem with hoff | hmem
  · exact hoff
  · by_contra hne
    exact h _ hne hmem

/-- Settles O58: the horn pattern is a chain of tests, the pattern of a tile the most urgent of those asked. -/
theorem patternsTakeTheMostUrgentCase : Obligations.PatternsTakeTheMostUrgentCase := by
  intro s n sounds ringback asks
  have hsounds (level : Nat) : s.soundsAt level = true ↔ sounds level := s.soundsAt_iff level
  have hring : s.ringsBack = true ↔ ringback := s.ringsBack_iff
  have hasks (q : Pattern) : q ∈ s.asksOf n ↔ asks q := s.mem_asksOf n q
  simp only [← hsounds, ← hring, ← hasks, State.hornPattern_eq]
  refine ⟨fun x hx => State.sounding_iff hx, ?_, ?_, ?_, ?_, ?_, ?_, ?fast, ?slow, ?wink, ?steady, ?off⟩
  iterate 6 (intros; simp [*, Option.isSome_iff_ne_none])
  case fast => exact fun h => State.tilePattern_eq_of_asked h fun p hp => absurd hp (Nat.not_lt_zero _)
  case slow =>
    intro hfast h
    refine State.tilePattern_eq_of_asked h fun p hp => ?_
    cases p <;> first | exact hfast | exact absurd hp (by decide)
  case wink =>
    intro hfast hslow h
    refine State.tilePattern_eq_of_asked h fun p hp => ?_
    cases p <;> first | exact hfast | exact hslow | exact absurd hp (by decide)
  case steady =>
    intro hfast hslow hwink h
    refine State.tilePattern_eq_of_asked h fun p hp => ?_
    cases p <;> first | exact hfast | exact hslow | exact hwink | exact absurd hp (by decide)
  case off =>
    intro hfast hslow hwink hsteady
    refine State.tilePattern_eq_off fun p hp => ?_
    cases p
    case off => exact absurd rfl hp
    all_goals assumption

end Sys2Proof.Machine

/-! The composer, the frames and scan-out (R139 to R141, R147 to R154). -/

namespace Sys2Proof.Machine

/-- R147 to R150: the frame of a snapshot in RUN with four lines. -/
theorem Snapshot.frame_fourLine {c : Snapshot} (hm : c.mode = .run) (hl : c.lineMode = .fourLine) :
    c.frame =
      { cells := #v[c.row 0, c.row 1, c.row 2,
          if c.presented = 0 ∧ c.message ≠ [] then textRow c.message else textRow c.statusLine],
        marks := #v[c.mark 0, c.mark 1, c.mark 2, .steady] } := by
  simp only [Snapshot.frame, hm, hl]

/-- R147, R150: the frame of a snapshot in RUN with two lines. -/
theorem Snapshot.frame_twoLine {c : Snapshot} (hm : c.mode = .run) (hl : c.lineMode = .twoLine) :
    c.frame =
      { cells := #v[if c.presented = 0 ∧ c.message ≠ [] then textRow c.message else c.row 0, c.row 1, blankRow, blankRow],
        marks := #v[if c.presented = 0 ∧ c.message ≠ [] then .steady else c.mark 0, c.mark 1, .steady, .steady] } := by
  simp only [Snapshot.frame, hm, hl]

/-- R151: the frame of a snapshot in CONFIG. -/
theorem Snapshot.frame_config {c : Snapshot} (hm : c.mode = .config) : c.frame = configScreen := by
  simp only [Snapshot.frame, hm]

/-- R151: the CONFIG screen, row by row. -/
theorem configScreen_reads :
    ReadsAt (configScreen.cells.get 0) 0 20 [0x4F, 0x55, 0x54, 0x20, 0x4F, 0x46, 0x20, 0x53, 0x45, 0x52, 0x56, 0x49, 0x43, 0x45] ∧
      (∀ r : Fin 4, r ≠ 0 → ReadsAt (configScreen.cells.get r) 0 20 []) ∧ ∀ r : Fin 4, configScreen.marks.get r = .steady := by
  refine ⟨readsAt_textRow Config.outOfService, fun r hr => ?_, fun r => get_replicate _ r⟩
  have hrow : configScreen.cells.get r = blankRow := by
    fin_cases r
    · exact absurd rfl hr
    all_goals rfl
  rw [hrow]
  exact readsAt_blankRow

/-- R135: the two spellings of a lit pattern agree. -/
theorem litIn_iff_litDuring (q : Pattern) (step : Fin 8) : q.litIn step = true ↔ litDuring q step := Pattern.litIn_iff q step

/-- R139, R148: the dot at column i and row j of a cell. -/
theorem Frame.dot_cell (f : Frame) (step : Fin 8) {x : Fin 120} {y : Fin 32} {r : Fin 4} {k : Fin 20} {i : Fin 6} {j : Fin 8}
    (hx : x.val = 6 * k.val + i.val) (hy : y.val = 8 * r.val + j.val) :
    f.dot step x y = true ↔
      i.val < 5 ∧ j.val < 7 ∧ (f.cells.get r).get k ≠ 0x20 ∧ Config.glyph ((f.cells.get r).get k) i.val j.val = true ∧
        (k.val ≠ 0 ∨ litDuring (f.marks.get r) step) := by
  have hr : (⟨y.val / 8, by omega⟩ : Fin 4) = r := Fin.ext (by show y.val / 8 = r.val; omega)
  have hkv : x.val / 6 = k.val := by omega
  have hi : x.val % 6 = i.val := by omega
  have hj : y.val % 8 = j.val := by omega
  unfold Frame.dot
  simp only [hr, hkv, hi, hj, Bool.and_eq_true, Bool.or_eq_true, decide_eq_true_eq, litIn_iff_litDuring, Config.space, and_assoc]

/-- R140: the rows of dots that a line mode drives are at most those of the panel. -/
theorem LineMode.shownRows_le (m : LineMode) : m.shownRows ≤ 32 := by cases m <;> decide

/-- R140, R141, R116: scan-out outside reset, dot by dot. -/
theorem State.panelDot_iff {s : State} (hreset : s.inReset = false) (x : Fin 120) (y : Fin 32) :
    let rows := s.pres.scan.lineMode.shownRows
    (rows ≤ y.val → s.panelDot x y = false) ∧
      (y.val < rows → s.kp.testRunning = true ∨ s.pres.scan.allLit = true → s.panelDot x y = true) ∧
      (y.val < rows → s.kp.testRunning = false → s.pres.scan.allLit = false →
        (s.pres.scan.orient = .normal → s.panelDot x y = s.pres.front.dot s.pres.scan.step x y) ∧
        (s.pres.scan.orient = .rotated → ∀ (x' : Fin 120) (y' : Fin 32), x.val + x'.val = 119 → y.val + y'.val = rows - 1 →
          s.panelDot x y = s.pres.front.dot s.pres.scan.step x' y')) := by
  intro rows
  refine ⟨fun h => ?dark, fun hy ht => ?lit, fun hy hk ha => ⟨fun ho => ?normal, fun ho x' y' hx hy' => ?rotated⟩⟩
  case dark => simp [State.panelDot, show s.pres.scan.lineMode.shownRows ≤ y.val from h]
  all_goals have hdriven : ¬s.pres.scan.lineMode.shownRows ≤ y.val := not_le.2 hy
  case lit => simp only [State.panelDot, hreset, hdriven, decide_false, Bool.or_self, Bool.false_eq_true, if_false,
    Bool.or_eq_true, ht, if_true]
  case normal => simp [State.panelDot, hreset, hdriven, hk, ha, ho]
  case rotated =>
    have hrows := s.pres.scan.lineMode.shownRows_le
    have hxlt : 119 - x.val < 120 := by omega
    have hylt : s.pres.scan.lineMode.shownRows - 1 - y.val < 32 := by omega
    have hxe : x' = ⟨119 - x.val, hxlt⟩ := Fin.ext (by show x'.val = 119 - x.val; omega)
    have hye : y' = ⟨s.pres.scan.lineMode.shownRows - 1 - y.val, hylt⟩ :=
      Fin.ext (by show y'.val = rows - 1 - y.val; omega)
    rw [hxe, hye]
    simp [State.panelDot, hreset, hdriven, hk, ha, ho]

/-- Settles O60: completion and frame boundary by the composer's state, the frame by its mode, the dots by scan-out. -/
theorem composerShowsWholeFrames : Obligations.ComposerShowsWholeFrames := by
  intro s c h
  refine ⟨?done, ?again, ⟨?swap, ?stay⟩, snapshot_takes s, ⟨?config, ?four, ?two⟩, ?dots⟩
  case done => intro hc hd; simp [exec, execCompositionComplete, hc, h, State.completed, hd]
  case again => intro hc hd; simp [exec, execCompositionComplete, hc, h, State.completed, hd]
  case swap => intro hc; simp [exec, execFrameBoundary, h, Presentation.swapped, hc]
  case stay =>
    intro hc
    have hswap : s.pres.swapped = s.pres := by
      unfold Presentation.swapped
      split
      · next hready => exact absurd hready hc
      · rfl
      · rfl
    simp [exec, execFrameBoundary, h, hswap]
  case config => intro hm; rw [Snapshot.frame_config hm]; exact configScreen_reads
  case four =>
    intro hm hl
    rw [Snapshot.frame_fourLine hm hl]
    refine ⟨fun r hr => ?_, fun hmsg => ?_, fun hmsg => ?_, rfl⟩
    · fin_cases r
      on_goal 4 => exact absurd rfl hr
      all_goals exact noticeRow_reads _ _ _ _ rfl rfl
    · rw [if_pos hmsg]; exact readsAt_textRow _
    · rw [if_neg hmsg]; exact statusLine_reads _
  case two =>
    intro hm hl
    rw [Snapshot.frame_twoLine hm hl]
    refine ⟨fun hmsg => ?_, fun hmsg => ?_, noticeRow_reads _ _ _ _ rfl rfl⟩
    · rw [if_pos hmsg, if_pos hmsg]; exact ⟨readsAt_textRow _, rfl⟩
    · rw [if_neg hmsg, if_neg hmsg]; exact noticeRow_reads _ _ _ _ rfl rfl
  case dots =>
    intro x y hreset
    obtain ⟨hdark, hlit, hshown⟩ := State.panelDot_iff hreset x y
    refine ⟨hdark, hlit, fun hy hk ha r k i j hcell => ?_⟩
    obtain ⟨hnormal, hrotated⟩ := hshown hy hk ha
    cases ho : s.pres.scan.orient with
    | normal =>
      rw [ho] at hcell
      rw [hnormal ho]
      exact Frame.dot_cell _ _ hcell.1 hcell.2
    | rotated =>
      rw [ho] at hcell
      rw [hrotated ho ⟨6 * k.val + i.val, by omega⟩ ⟨8 * r.val + j.val, by omega⟩ hcell.1 hcell.2]
      exact Frame.dot_cell _ _ rfl rfl

end Sys2Proof.Machine

/-! The reports of the table, the Pending Set and the Shelf List (R194 to R196), over the Rank List (R50) and the presented view
(R55). -/

namespace Sys2Proof.Machine

/-- R50: the order of the Rank List, not strict: by level, then bucket, then arrival. -/
def Notice.rankLe (a b : Notice) : Prop :=
  b.level < a.level ∨ (a.level = b.level ∧
    (a.phase.bucket < b.phase.bucket ∨ (a.phase.bucket = b.phase.bucket ∧ a.arrival ≤ b.arrival)))

theorem Notice.ranksBefore_iff (a b : Notice) : a.ranksBefore b = true ↔ ¬b.rankLe a := by
  simp only [Notice.ranksBefore, Notice.rankLe, Bool.or_eq_true, Bool.and_eq_true, decide_eq_true_eq]
  omega

theorem Notice.rankLe_trans {a b c : Notice} (h : a.rankLe b) (k : b.rankLe c) : a.rankLe c := by
  unfold Notice.rankLe at *
  omega

theorem Notice.rankLe_total (a b : Notice) : a.rankLe b ∨ b.rankLe a := by
  unfold Notice.rankLe
  omega

/-- R50: a notice put at its place keeps the order. -/
theorem pairwise_rankInsert (n : Notice) {l : List Notice} (h : l.Pairwise Notice.rankLe) :
    (rankInsert n l).Pairwise Notice.rankLe := by
  induction l with
  | nil => simp [rankInsert]
  | cons m rest ih =>
    obtain ⟨hm, hrest⟩ := List.pairwise_cons.1 h
    unfold rankInsert
    split
    · next hbefore =>
      have hnm : n.rankLe m := (n.rankLe_total m).resolve_right ((Notice.ranksBefore_iff n m).1 hbefore)
      refine List.pairwise_cons.2 ⟨fun x hx => ?_, h⟩
      rcases List.mem_cons.1 hx with rfl | hx
      · exact hnm
      · exact Notice.rankLe_trans hnm (hm x hx)
    · next hafter =>
      have hmn : m.rankLe n := not_not.1 (mt (Notice.ranksBefore_iff n m).2 hafter)
      refine List.pairwise_cons.2 ⟨fun x hx => ?_, ih hrest⟩
      rcases List.mem_cons.1 ((perm_rankInsert n rest).mem_iff.1 hx) with rfl | hx
      · exact hmn
      · exact hm x hx

theorem pairwise_rankSort (l : List Notice) : (rankSort l).Pairwise Notice.rankLe := by
  induction l with
  | nil => exact .nil
  | cons n rest ih => exact pairwise_rankInsert n ih

/-- R79: a point is suppressed exactly while its parent is ACTIVE. -/
theorem State.suppressed_iff (s : State) (p : Pt) :
    s.suppressed p = true ↔ ∃ q, s.parentOf p = some q ∧ s.active (UserPt.pt q) = true := by
  unfold State.suppressed
  split
  · next q h => simp [h]
  · next h => simp [h]

/-- R55: what withholds no point. -/
theorem State.withheld_eq_false_iff (s : State) (p : Pt) :
    s.withheld p = false ↔
      s.shelfEntry? p = none ∧ (∀ q, s.parentOf p = some q → s.active (UserPt.pt q) = false) := by
  have hsup : s.suppressed p = false ↔ ∀ q, s.parentOf p = some q → s.active (UserPt.pt q) = false := by
    rw [← Bool.not_eq_true, s.suppressed_iff]
    simp
  simp [State.withheld, State.shelved, hsup]

/-- R183: the notice flags, bit by bit. -/
theorem State.noticeFlags_bits (s : State) (n : Notice) :
    (s.noticeFlags n).getLsbD 0 = n.firstOut ∧ (s.noticeFlags n).getLsbD 1 = n.silenced ∧
      (s.noticeFlags n).getLsbD 2 = n.stale ∧ (s.noticeFlags n).getLsbD 3 = n.chattering ∧
      (s.noticeFlags n).getLsbD 4 = s.shelved n.point ∧ (s.noticeFlags n).getLsbD 5 = s.suppressed n.point ∧
      (s.noticeFlags n).getLsbD 6 = n.realert.isSome ∧ (s.noticeFlags n).getLsbD 7 = s.sounding n := by
  refine ⟨?_, ?_, ?_, ?_, ?_, ?_, ?_, ?_⟩ <;> simp [State.noticeFlags, bit_eq_ofBool]

/-- LOOKUP of a point with a live notice reports its record. -/
theorem exec_lookup_some {s : State} (h : s.inService = true) {p : Pt} {n : Notice} (hn : s.notice? p = some n) :
    exec (.lookup [byteOf p.val]) s = .next (s.replied 0x28 [byteOf p.val] .ok (s.lookupRecord n)) := by
  have hverdict : lookupVerdict s [byteOf p.val] = .answer .ok (s.lookupRecord n) := by
    rw [lookupVerdict, parseOne_byteOf p (by decide), withArgs_some, hn]
    rfl
  show Host.Outcome.next _ = _
  rw [hverdict]
  exact congrArg _ (request_answer s 0x28 _ .ok _ h)

/-- LOOKUP of a point without one reports its status. -/
theorem exec_lookup_none {s : State} (h : s.inService = true) {p : Pt} (hn : s.notice? p = none) :
    exec (.lookup [byteOf p.val]) s = .next (s.replied 0x28 [byteOf p.val] .noNotice (s.lookupStatus p)) := by
  have hverdict : lookupVerdict s [byteOf p.val] = .answer .noNotice (s.lookupStatus p) := by
    rw [lookupVerdict, parseOne_byteOf p (by decide), withArgs_some, hn]
    rfl
  show Host.Outcome.next _ = _
  rw [hverdict]
  exact congrArg _ (request_answer s 0x28 _ .noNotice _ h)

/-- R195: the code of a filter of LIST. -/
def ListFilter.code : ListFilter → Byte
  | .all => 0
  | .presented => 1
  | .unack => 2

theorem parseList_code (start : Byte) (f : ListFilter) : parseList [start, f.code] = some (start.toNat, f) := by
  cases f <;> rfl

theorem exec_list {s : State} (h : s.inService = true) (start : Byte) (f : ListFilter) :
    exec (.list [start, f.code]) s =
      .next (s.replied 0x29 [start, f.code] .ok (s.listReport start.toNat f)) := by
  show Host.Outcome.next _ = _
  rw [parseList_code]
  exact congrArg _ (request_answer s 0x29 _ .ok _ h)

/-- R183, R195: the report of LIST, with the number of its entries written out. -/
theorem State.listReport_eq (s : State) (start : Byte) (f : ListFilter) :
    s.listReport start.toNat f =
      be16 s.nt.rev.toNat ++
        [byteOf (s.listed f).length, start, byteOf (min 3 ((s.listed f).length - start.toNat))] ++
        (((s.listed f).drop start.toNat).take (min 3 ((s.listed f).length - start.toNat))).flatMap s.listEntry := by
  have hstart : byteOf start.toNat = start := BitVec.ofNat_toNat ..
  have htake : ((s.listed f).drop start.toNat).take (min 3 ((s.listed f).length - start.toNat)) =
      ((s.listed f).drop start.toNat).take 3 := by
    rw [← List.length_drop, ← List.take_eq_take_min]
  simp only [State.listReport, hstart, htake, List.length_take, List.length_drop]

theorem exec_pending {s : State} (h : s.inService = true) (u : UserPt) :
    exec (.pending [byteOf u.val]) s = .next (s.replied 0x2A [byteOf u.val] .ok (s.pendingReport u)) :=
  congrArg Host.Outcome.next (request_report_one h 0x2A (by decide) u s.pendingReport)

theorem exec_shelf {s : State} (h : s.inService = true) (i : Fin 16) :
    exec (.shelf [byteOf i.val]) s = .next (s.replied 0x2B [byteOf i.val] .ok (s.shelfReport i.val)) :=
  congrArg Host.Outcome.next (request_report_one h 0x2B (by decide) i fun i => s.shelfReport i.val)

/-- Settles O25: the Rank List is the sorted table, and each report reads its list. -/
theorem tableReportsReadTheTable : Obligations.TableReportsReadTheTable := by
  intro s h
  refine ⟨perm_rankList s, pairwise_rankSort _, fun n _ => ?flags, ?presented, s.withheld_eq_false_iff, fun p n hn => ?live,
    fun p hn => exec_lookup_none h hn, fun start f => ?list, exec_pending h, exec_shelf h⟩
  case flags =>
    obtain ⟨h0, h1, h2, h3, h4, h5, h6, h7⟩ := s.noticeFlags_bits n
    exact ⟨h0, h1, h2, h3, h4, by rw [h5, s.suppressed_iff], h6, h7⟩
  case presented =>
    unfold State.presented
    congr 1
    funext n
    cases s.withheld n.point <;> rfl
  case live =>
    obtain ⟨-, rfl⟩ := notice?_some hn
    exact exec_lookup_some h hn
  case list =>
    have hlisted := (exec_list h start f).trans (by rw [s.listReport_eq])
    have hunack : (s.presented.filter fun n => n.phase.unack) = s.presented.filter fun n => n.phase ≠ Phase.standing := by
      congr 1
      funext n
      cases n.phase <;> rfl
    cases f with
    | all => exact hlisted
    | presented => exact hlisted
    | unack =>
      simp only [State.listed, hunack] at hlisted
      exact hlisted

end Sys2Proof.Machine

/-! Changes of records that the operator does not see: the view and the patterns after them. -/

namespace Sys2Proof.Machine

/-- What of a notice the Rank List, the view and the patterns of the panel read stands. -/
structure SeenAlike (a b : Notice) : Prop where
  point : b.point = a.point
  phase : b.phase = a.phase
  level : b.level = a.level
  arrival : b.arrival = a.arrival
  silenced : b.silenced = a.silenced

theorem SeenAlike.ranksBefore {a b c d : Notice} (h : SeenAlike a b) (k : SeenAlike c d) :
    b.ranksBefore d = a.ranksBefore c := by
  simp only [Notice.ranksBefore, h.level, h.phase, h.arrival, k.level, k.phase, k.arrival]

theorem rankInsert_map {f : Notice → Notice} (hf : ∀ n, SeenAlike n (f n)) (n : Notice) (l : List Notice) :
    rankInsert (f n) (l.map f) = (rankInsert n l).map f := by
  induction l with
  | nil => rfl
  | cons m rest ih =>
    simp only [List.map_cons, rankInsert, (hf n).ranksBefore (hf m), ih]
    split <;> rfl

/-- R50: a change that the ranking does not read leaves every notice its place. -/
theorem rankSort_map {f : Notice → Notice} (hf : ∀ n, SeenAlike n (f n)) (l : List Notice) :
    rankSort (l.map f) = (rankSort l).map f := by
  induction l with
  | nil => rfl
  | cons n rest ih => simp only [List.map_cons, rankSort, ih, rankInsert_map hf]

/-- State t has the notices of state s, changed in what is not seen, and withholds what s withholds. -/
structure UnseenStep (f : Notice → Notice) (s t : State) : Prop where
  notices : t.nt.notices = s.nt.notices.map f
  alike : ∀ n, SeenAlike n (f n)
  withheld : ∀ p, t.withheld p = s.withheld p

/-- R55: the presented view after a change that is not seen. -/
theorem UnseenStep.presented {f : Notice → Notice} {s t : State} (h : UnseenStep f s t) : t.presented = s.presented.map f := by
  have hfilter : ((fun n => !t.withheld n.point) ∘ f) = fun n => !s.withheld n.point := by
    funext n
    simp only [Function.comp_apply, (h.alike n).point, h.withheld]
  simp only [State.presented, State.rankList, h.notices, rankSort_map h.alike, List.filter_map, hfilter]

theorem UnseenStep.viewShape {f : Notice → Notice} {s t : State} (h : UnseenStep f s t) : t.viewShape = s.viewShape := by
  simp only [State.viewShape, h.presented, List.map_map]
  congr 1
  funext n
  simp only [Function.comp_apply, (h.alike n).point, (h.alike n).phase, (h.alike n).level]

theorem UnseenStep.length_presented {f : Notice → Notice} {s t : State} (h : UnseenStep f s t) :
    t.presented.length = s.presented.length := by
  rw [h.presented, List.length_map]

/-- R119: what sounds, after a change that is not heard, under a floor that stands. -/
theorem UnseenStep.sounding {f : Notice → Notice} {s t : State} (h : UnseenStep f s t) (hpt : t.pt.points = s.pt.points)
    (hfloor : t.snd.floor = s.snd.floor) (n : Notice) : t.sounding (f n) = s.sounding n := by
  have hcls (p : Pt) : t.classOf p = s.classOf p := by simp only [State.classOf, State.pointRec, hpt]
  have hseq (p : Pt) : t.seqOf p = s.seqOf p := by simp only [State.seqOf, State.pointRec, hpt]
  simp only [State.sounding, State.ackable, (h.alike n).point, (h.alike n).phase, (h.alike n).level, (h.alike n).silenced,
    h.withheld, hcls, hseq, hfloor]

/-- R121: the steady pattern after such a change. -/
theorem UnseenStep.steadyPattern {f : Notice → Notice} {s t : State} (h : UnseenStep f s t) (hpt : t.pt.points = s.pt.points)
    (hfloor : t.snd.floor = s.snd.floor) : t.steadyPattern = s.steadyPattern := by
  have hs (n : Notice) := h.sounding hpt hfloor n
  have hat (level : Nat) : t.soundsAt level = s.soundsAt level := by
    simp only [State.soundsAt, h.notices, List.any_map]
    congr 1
    funext n
    simp only [Function.comp_apply, hs, (h.alike n).level, (h.alike n).phase]
  have hring : t.ringsBack = s.ringsBack := by
    simp only [State.ringsBack, h.notices, List.any_map]
    congr 1
    funext n
    simp only [Function.comp_apply, hs, (h.alike n).phase]
  unfold State.ringsBack at hring
  simp only [State.steadyPattern, hat, hring]

/-- A change of the realert countdown alone is not seen. -/
theorem seenAlike_realert (r : Notice → Option Countdown) (n : Notice) : SeenAlike n { n with realert := r n } :=
  ⟨rfl, rfl, rfl, rfl, rfl⟩

/-- R36, R152: nor is it among what a change to a record shows in. -/
theorem content_realert (r : Notice → Option Countdown) (n : Notice) :
    Notice.content { n with realert := r n } = n.content := rfl

theorem UnseenStep.windowShape {f : Notice → Notice} {s t : State} (h : UnseenStep f s t)
    (hc : ∀ n, (f n).content = n.content) (htop : t.pres.top = s.pres.top) (hmode : t.pres.lineMode = s.pres.lineMode) :
    t.windowShape = s.windowShape := by
  simp only [State.windowShape, State.windowNotices, h.presented, htop, hmode, ← List.map_drop, ← List.map_take, List.map_map]
  congr 1
  funext n
  exact hc n

/-- An event that leaves the view and asks for nothing moves the chirp burst alone. -/
theorem settle_quiet {b : State} {w : Work} (hn : w.notify = false) (hc : w.compose = false)
    (hv : b.viewShape = w.st.viewShape) (hd : compositionDue b w.st = false) :
    settle b w = w.st.withSnd { w.st.snd with chirp := w.st.chirpAfter (w.alerts ++ w.chirps) } := by
  simp [settle, hn, hc, hv, hd]

/-- R152: an event that requests a composition of its own leaves the composer composing. -/
theorem settle_composer_requested {b : State} {w : Work} (h : w.notify = true ∨ w.compose = true) :
    (settle b w).pres.composer ≠ .idle ∧ (settle b w).pres.composer ≠ .ready := by
  unfold settle
  dsimp only
  rw [if_pos (show (_ || _ || _) = true by rcases h with h | h <;> simp [h])]
  exact ⟨(requestComposition_window _).2.2.2.1, (requestComposition_window _).2.2.2.2⟩

/-! ## WRITE_PANEL -/

/-- R187: an accepted WRITE_PANEL leaves the view as it was: no countdown is seen in it. -/
theorem unseenStep_putPanel (s : State) (a : PanelSettings) :
    ∃ r : Notice → Option Countdown, UnseenStep (fun n => { n with realert := r n }) s (s.putPanel a) := by
  by_cases h : s.snd.realertMin ≠ a.realertMin ∧ a.realertMin = 0
  · refine ⟨fun _ => none, ?_, seenAlike_realert _, fun _ => rfl⟩
    show (if _ then _ else _ : NoticeTable).notices = _
    rw [if_pos h]
    rfl
  · refine ⟨Notice.realert, ?_, seenAlike_realert _, fun _ => rfl⟩
    show (if _ then _ else _ : NoticeTable).notices = _
    rw [if_neg h]
    exact (List.map_id' _).symm

theorem putPanel_notices (s : State) (a : PanelSettings) :
    (s.putPanel a).nt = { s.nt with notices :=
      if s.snd.realertMin ≠ a.realertMin ∧ a.realertMin = 0 then s.nt.notices.map fun n => { n with realert := none }
      else s.nt.notices } := by
  show (if _ then _ else _ : NoticeTable) = _
  split <;> rfl

/-- R169, R173: a supervision setting moves the setting, the state and the timer of supervision alone. -/
theorem Link.withSupervision_frame (k : Link) (m : Mode) (n : Nat) :
    k.withSupervision m n =
      { k with supSetting := n, sup := (k.withSupervision m n).sup, supTimer := (k.withSupervision m n).supTimer } := by
  unfold Link.withSupervision
  split
  · next h => subst h; rfl
  · split
    · rfl
    · split
      · next h => subst h; rfl
      · rfl

/-- R169, R173: one that changes in RUN acts; another leaves supervision as it runs. -/
theorem Link.withSupervision_spec (k : Link) (m : Mode) (n : Nat) :
    if k.supSetting ≠ n ∧ m = .run then
      (if n = 0 then (k.withSupervision m n).sup = .off ∧ (k.withSupervision m n).supTimer = none
       else (k.withSupervision m n).sup = .running ∧ (k.withSupervision m n).supTimer = some { left := n, due := false })
    else (k.withSupervision m n).sup = k.sup ∧ (k.withSupervision m n).supTimer = k.supTimer := by
  unfold Link.withSupervision
  by_cases h : k.supSetting = n
  · simp [h]
  · cases m with
    | config => simp [h]
    | run =>
      by_cases h0 : n = 0
      · subst h0; simp [h]
      · simp [h, h0, Countdown.start]

/-- R123: without a candidate no burst starts. -/
theorem chirpAfter_nil (s : State) : s.chirpAfter [] = if s.steadyPattern.isSome then none else s.snd.chirp := by
  unfold State.chirpAfter
  cases s.snd.chirp <;> simp

theorem exec_writePanel {s : State} {a : PanelSettings} (h1 : 1 ≤ a.floor) (h2 : a.floor ≤ 5) (h3 : a.realertMin ≤ 60)
    (h4 : a.supervision ≤ 255) (h5 : 5 ≤ a.scrollHold) (h6 : a.scrollHold ≤ 120) (h7 : 10 ≤ a.window) (h8 : a.window ≤ 250) :
    exec (.writePanel a.payload) s =
      .next (s.request 0x16 a.payload
        (if s.ctl.mode = .run ∧ s.pres.lineMode ≠ a.lineMode then .refuse .wrongMode else .act .ok (s.work.writePanel a))) := by
  show Host.Outcome.next (s.request _ _ (writePanelVerdict _ _)) = _
  rw [writePanelVerdict, parsePanel_payload a h1 h2 h3 h4 h5 h6 h7 h8]
  rfl

/-- Settles O33: the settings are stored as they come; the view stands, so only a new line mode or orientation composes. -/
theorem writePanelStoresTheSettings : Obligations.WritePanelStoresTheSettings := by
  intro s a hs h1 h2 h3 h4 h5 h6 h7 h8 turned
  rw [exec_writePanel h1 h2 h3 h4 h5 h6 h7 h8]
  refine ⟨fun hturned => ?refused, fun hturned => ?accepted⟩
  case refused =>
    rw [if_pos hturned]
    exact congrArg _ (request_answer s 0x16 _ _ _ hs)
  case accepted =>
    rw [if_neg hturned, request_act_replied hs]
    refine ⟨_, rfl, ?_⟩
    obtain ⟨r, hunseen⟩ := unseenStep_putPanel s a
    have hview : s.viewShape = (s.work.writePanel a).st.viewShape := hunseen.viewShape.symm
    obtain ⟨htop, hanchor, htimer⟩ := settle_window_still s (s.work.writePanel a) rfl hview
    have hpres := presStep_settle s (s.work.writePanel a)
    have hlink : (settle s (s.work.writePanel a)).link = s.link.withSupervision s.ctl.mode a.supervision := settle_link _ _
    have hsnd := settle_snd s (s.work.writePanel a)
    have hchirp : (settle s (s.work.writePanel a)).snd.chirp = (s.putPanel a).chirpAfter [] := settle_chirp _ _
    have hburst : (s.putPanel a).snd.chirp = if s.snd.floor ≠ a.floor ∧ 1 < a.floor then none else s.snd.chirp := rfl
    rw [chirpAfter_nil, hburst] at hchirp
    have hsnd' : (settle s (s.work.writePanel a)).snd =
        { s.snd.withSettings a with chirp := (settle s (s.work.writePanel a)).snd.chirp } := hsnd
    have hlq : (settle s (s.work.writePanel a)).lq = { s.lq with window := a.window } := settle_lq _ _
    have hlines : (settle s (s.work.writePanel a)).lq.lines = s.lq.lines := by rw [hlq]
    have houts : (settle s (s.work.writePanel a)).snd.outs = s.snd.outs := by rw [hsnd']; rfl
    have hhorn : (settle s (s.work.writePanel a)).snd.horn = s.snd.horn := by rw [hsnd']; rfl
    have hodd : (settle s (s.work.writePanel a)).snd.oddCycle = s.snd.oddCycle := by rw [hsnd']; rfl
    have hlinkFrame := hlink.trans (Link.withSupervision_frame ..)
    refine ⟨rfl, ?settings, settle_pending _ _, settle_ctl _ _, settle_pt _ _, settle_shelf _ _, settle_kp _ _,
      hlines, houts, hhorn, hodd,
      hpres.step, hpres.message, htop, hanchor, htimer, hpres.front, hpres.back, hpres.scan, hpres.refresh, hpres.lamps,
      ?link, ?supervision, (settle_nt _ _).trans (putPanel_notices s a), ?floorUp, ?floorSame, ?floorOne, ?composes, ?still⟩
    case settings =>
      have hset : (settle s (s.work.writePanel a)).link.supSetting = a.supervision := congrArg Link.supSetting hlinkFrame
      have hfloor : (settle s (s.work.writePanel a)).snd.floor = a.floor := congrArg Sounder.floor hsnd'
      have hmin : (settle s (s.work.writePanel a)).snd.realertMin = a.realertMin := congrArg Sounder.realertMin hsnd'
      show State.panelSettings (settle s (s.work.writePanel a)) = a
      simp only [State.panelSettings, hpres.lineMode, hpres.orient, hpres.scrollHold, hset, hfloor, hmin, hlq]
      rfl
    case link =>
      simp only [State.replied, recordRun_link, hlinkFrame]
    case supervision =>
      show if _ then (if _ then (settle s (s.work.writePanel a)).link.sup = _ ∧ (settle s (s.work.writePanel a)).link.supTimer = _
        else (settle s (s.work.writePanel a)).link.sup = _ ∧ (settle s (s.work.writePanel a)).link.supTimer = _)
        else (settle s (s.work.writePanel a)).link.sup = _ ∧ (settle s (s.work.writePanel a)).link.supTimer = _
      rw [hlink]
      exact Link.withSupervision_spec ..
    case floorUp =>
      intro hne hlt
      refine hchirp.trans ?_
      rw [if_pos (show s.snd.floor ≠ a.floor ∧ 1 < a.floor from ⟨hne, hlt⟩)]
      split <;> rfl
    case floorSame =>
      intro hok heq
      have hsteady : (s.putPanel a).steadyPattern = s.steadyPattern := hunseen.steadyPattern rfl heq.symm
      refine hchirp.trans ?_
      rw [if_neg (show ¬(s.snd.floor ≠ a.floor ∧ 1 < a.floor) from fun h => h.1 heq), hsteady, ← chirpAfter_nil,
        chirpAfter_none s hok]
    case floorOne =>
      intro hone hpat
      have hnone : (s.putPanel a).steadyPattern.isSome = false := by
        have hpattern : (settle s (s.work.writePanel a)).steadyPattern = (s.putPanel a).steadyPattern := settle_steadyPattern _ _
        rw [← hpattern, ← Bool.not_eq_true, ← hornPattern_steady]
        rintro ⟨hne, hsilent⟩
        exact hpat.elim hne hsilent
      refine hchirp.trans ?_
      rw [hnone, if_neg (show ¬(s.snd.floor ≠ a.floor ∧ 1 < a.floor) by omega)]
      rfl
    case composes =>
      intro h
      exact settle_composer_requested (w := s.work.writePanel a) (.inr (by
        show (false || decide (s.pres.lineMode ≠ a.lineMode) || decide (s.pres.orient ≠ a.orient)) = true
        rcases h with h | h <;> simp [h]))
    case still =>
      intro hmode horient
      have hdue : compositionDue s (s.putPanel a) = false := by
        have hwindow := hunseen.windowShape (content_realert r) rfl hmode.symm
        simp only [compositionDue, hunseen.viewShape, hwindow, putPanel_notices, show (s.putPanel a).pres.top = s.pres.top from rfl,
          show (s.putPanel a).shelf = s.shelf from rfl]
        simp
      have hquiet := settle_quiet (b := s) (w := s.work.writePanel a) rfl (by
        show (false || decide (s.pres.lineMode ≠ a.lineMode) || decide (s.pres.orient ≠ a.orient)) = false
        simp [hmode, horient]) hview hdue
      rw [hquiet]
      exact ⟨rfl, rfl⟩

end Sys2Proof.Machine

/-! WRITE_LINE (R2, R88). -/

namespace Sys2Proof.Machine

/-- R5: a condition that takes the value it has stands. -/
theorem putCond_self {w : Work} {p : Pt} {v : Bool} (h : w.st.active p = v) : w.putCond p v = w := by
  have hset : w.st.pt.cond.set p.val v = w.st.pt.cond := by
    rw [← h]
    exact Vector.set_getElem_self _
  show { w with st := w.st.withPt { w.st.pt with cond := w.st.pt.cond.set p.val v } } = w
  rw [hset]
  rfl

/-- R2, R5: in CONFIG a condition that a binding moves takes its value and does nothing else. -/
theorem setUser_config {w : Work} (h : w.st.ctl.mode = .config) (u : UserPt) (v : Bool) :
    w.setUser u v false = w.putCond (UserPt.pt u) v := by
  by_cases hv : w.st.active (UserPt.pt u) = v
  · rw [setUser_same w u v false hv, putCond_self hv]
  · unfold Work.setUser
    rw [if_neg hv]
    exact if_neg (show ¬(w.putCond (UserPt.pt u) v).st.ctl.mode = .run by
      rw [show (w.putCond (UserPt.pt u) v).st.ctl.mode = w.st.ctl.mode from rfl, h]
      decide)

/-- The conditions after a binding's point took one. -/
def Work.boundCond (w : Work) (bound : Option UserPt) (v : Bool) : Work :=
  match bound with
  | some u => w.putCond (UserPt.pt u) v
  | none => w

theorem setBound_config {w : Work} (h : w.st.ctl.mode = .config) (bound : Option UserPt) (v : Bool) :
    w.setBound bound v = w.boundCond bound v := by
  cases bound with
  | none => rfl
  | some u => exact setUser_config h u v

/-- It changes conditions alone. -/
theorem boundCond_eq (w : Work) (bound : Option UserPt) (v : Bool) :
    w.boundCond bound v =
      w.onState fun s => s.withPt { s.pt with cond := (w.boundCond bound v).st.pt.cond } := by
  cases bound <;> rfl

theorem active_boundCond (w : Work) (bound : Option UserPt) (v : Bool) (p : Pt) :
    (w.boundCond bound v).st.active p = if ∃ u, bound = some u ∧ p = UserPt.pt u then v else w.st.active p := by
  cases bound with
  | none => simp [Work.boundCond]
  | some u => simp [Work.boundCond, active_putCond]

/-- R2, R88: what an accepted WRITE_LINE does in CONFIG. -/
theorem writeLine_config {w : Work} (h : w.st.ctl.mode = .config) (a : LineWrite) :
    w.writeLine a =
      let old := w.st.lineRec a.line
      let w1 := w.onState fun s => s.putLine a.line (old.written a)
      if old.bound ≠ a.bound then (w1.boundCond old.bound false).boundCond a.bound (old.written a).held
      else if old.held ≠ (old.written a).held then w1.boundCond a.bound (old.written a).held
      else w1 := by
  have h1 : (w.onState fun s => s.putLine a.line ((w.st.lineRec a.line).written a)).st.ctl.mode = .config := h
  unfold Work.writeLine
  dsimp only
  rw [setBound_config h1, setBound_config h1, setBound_config]
  rw [boundCond_eq]
  exact h

/-- It changes the line record and conditions alone. -/
theorem writeLine_frame {w : Work} (h : w.st.ctl.mode = .config) (a : LineWrite) :
    w.writeLine a =
      w.onState fun s => (s.withLq { s.lq with lines := s.lq.lines.set a.line.val ((s.lineRec a.line).written a) }).withPt
        { s.pt with cond := (w.writeLine a).st.pt.cond } := by
  rw [writeLine_config h]
  dsimp only
  split
  · rw [boundCond_eq _ a.bound, boundCond_eq _ (w.st.lineRec a.line).bound]
    rfl
  · split
    · rw [boundCond_eq]
      rfl
    · rfl

/-- R91: a raw change moves the state and the running qualification alone. -/
theorem LineRec.rawChange_frame (r : LineRec) (v : Bool) :
    r.rawChange v = { r with state := (r.rawChange v).state, qualify := (r.rawChange v).qualify } := by
  unfold LineRec.rawChange
  split <;> rfl

/-- R88: a line record with the five fields of a write. -/
def LineRec.configured (r : LineRec) (a : LineWrite) : LineRec :=
  { r with
    bound := a.bound, polarity := a.polarity, qualifyOn := a.qualifyOn, qualifyOff := a.qualifyOff,
    chatterLimit := a.chatterLimit }

/-- R88: what a changed polarity makes of the sample: a raw change. -/
def LineRec.repolarized (r : LineRec) (a : LineWrite) : LineRec :=
  if r.polarity = a.polarity then r.configured a
  else { r.configured a with sample := !r.sample }.rawChange (!r.sample)

theorem LineRec.written_eq (r : LineRec) (a : LineWrite) :
    r.written a =
      if a.chatterLimit = 0 ∧ r.chatterLimit ≠ 0 then (r.repolarized a).idleWindow else r.repolarized a := rfl

/-- R88: what a write leaves of a record beside its qualification and its chatter window. -/
theorem LineRec.repolarized_frame (r : LineRec) (a : LineWrite) :
    r.repolarized a =
      { r.configured a with
        sample := if r.polarity = a.polarity then r.sample else !r.sample
        state := (r.repolarized a).state
        qualify := (r.repolarized a).qualify } := by
  unfold LineRec.repolarized
  by_cases h : r.polarity = a.polarity
  · simp only [if_pos h]; rfl
  · simp only [if_neg h]
    exact LineRec.rawChange_frame _ _

/-- R88: the window of a record written is idle if the limit went to 0, and stands otherwise. -/
theorem LineRec.written_frame (r : LineRec) (a : LineWrite) :
    r.written a =
      { r.repolarized a with
        hold := (r.written a).hold, count := (r.written a).count, timer := (r.written a).timer } := by
  rw [r.written_eq a]
  split <;> rfl

/-- R2, R88: the conditions after an accepted WRITE_LINE. -/
theorem active_writeLine {w : Work} (h : w.st.ctl.mode = .config) (a : LineWrite) (p : Pt) :
    (w.writeLine a).st.active p =
      if (w.st.lineRec a.line).bound ≠ a.bound then
        if ∃ u, a.bound = some u ∧ p = UserPt.pt u then ((w.st.lineRec a.line).written a).held
        else if ∃ u, (w.st.lineRec a.line).bound = some u ∧ p = UserPt.pt u then false else w.st.active p
      else if (w.st.lineRec a.line).held ≠ ((w.st.lineRec a.line).written a).held then
        if ∃ u, a.bound = some u ∧ p = UserPt.pt u then ((w.st.lineRec a.line).written a).held else w.st.active p
      else w.st.active p := by
  rw [writeLine_config h]
  dsimp only
  split
  · rw [active_boundCond, active_boundCond]
    rfl
  · split
    · rw [active_boundCond]
      rfl
    · rfl

/-- R88: the five configuration fields, and the sample, that an accepted WRITE_LINE leaves. -/
theorem LineRec.written_config (r : LineRec) (a : LineWrite) :
    (r.written a).bound = a.bound ∧ (r.written a).polarity = a.polarity ∧ (r.written a).qualifyOn = a.qualifyOn ∧
      (r.written a).qualifyOff = a.qualifyOff ∧ (r.written a).chatterLimit = a.chatterLimit ∧
      (r.written a).sample = if r.polarity = a.polarity then r.sample else !r.sample := by
  rw [r.written_frame a, r.repolarized_frame a]
  exact ⟨rfl, rfl, rfl, rfl, rfl, rfl⟩

/-- R88: the qualification, by what the write makes of the sample. -/
theorem LineRec.written_qualification (r : LineRec) (a : LineWrite) :
    (r.written a).state = (r.repolarized a).state ∧ (r.written a).qualify = (r.repolarized a).qualify := by
  rw [r.written_frame a]
  exact ⟨rfl, rfl⟩

/-- R88: the chatter fields, by the limit. -/
theorem LineRec.written_chatter (r : LineRec) (a : LineWrite) :
    if a.chatterLimit = 0 ∧ r.chatterLimit ≠ 0 then
      (r.written a).hold = .none ∧ (r.written a).count = 0 ∧ (r.written a).timer = none
    else (r.written a).hold = r.hold ∧ (r.written a).count = r.count ∧ (r.written a).timer = r.timer := by
  rw [r.written_eq a]
  split
  · exact ⟨rfl, rfl, rfl⟩
  · rw [r.repolarized_frame a]
    exact ⟨rfl, rfl, rfl⟩

/-- R88, R91: a polarity that changes is a raw change to the reversed sample. -/
theorem LineRec.repolarized_moves {r : LineRec} {a : LineWrite} (hp : r.polarity ≠ a.polarity) :
    (r.sample = false → r.state = .quiet → (r.repolarized a).state = .rising ∧ (r.repolarized a).qualify = a.qualifyOn) ∧
      (r.sample = false → r.state = .falling → (r.repolarized a).state = .active ∧ (r.repolarized a).qualify = 0) ∧
      (r.sample = true → r.state = .active → (r.repolarized a).state = .falling ∧ (r.repolarized a).qualify = a.qualifyOff) ∧
      (r.sample = true → r.state = .rising → (r.repolarized a).state = .quiet ∧ (r.repolarized a).qualify = 0) := by
  refine ⟨?_, ?_, ?_, ?_⟩ <;>
    (intro hsample hstate; simp [LineRec.repolarized, hp, LineRec.rawChange, LineRec.configured, hsample, hstate])

/-- R2: the conflict that refuses a write. -/
theorem State.bindConflict_iff (s : State) (a : LineWrite) :
    s.bindConflict a = true ↔ ∃ u, a.bound = some u ∧ ∃ l, l ≠ a.line ∧ (s.lineRec l).bound = some u := by
  unfold State.bindConflict
  cases a.bound with
  | none => simp
  | some u => simp [List.any_eq_true]

theorem exec_writeLine {s : State} (hm : s.ctl.mode = .config) {a : LineWrite} (h1 : 1 ≤ a.qualifyOn) (h2 : a.qualifyOn ≤ 250)
    (h3 : 1 ≤ a.qualifyOff) (h4 : a.qualifyOff ≤ 250)
    (h5 : a.chatterLimit = 0 ∨ (3 ≤ a.chatterLimit ∧ a.chatterLimit ≤ 15)) :
    exec (.writeLine a.payload) s =
      .next (s.request 0x14 a.payload
        (if s.bindConflict a then .refuse .sourceConflict else .act .ok (s.work.writeLine a))) := by
  show Host.Outcome.next (s.request _ _ (writeLineVerdict _ _)) = _
  rw [writeLineVerdict, inMode_same s .config _ hm, parseLine_payload a h1 h2 h3 h4 h5]
  rfl

/-- R199: in CONFIG no part of an event's end sees a WRITE_LINE. -/
theorem settle_writeLine {s : State} (hempty : s.ConfigEmpty) (hm : s.ctl.mode = .config) (a : LineWrite) :
    settle s (s.work.writeLine a) = (s.work.writeLine a).st := by
  obtain ⟨hnotices, -, -⟩ := hempty hm
  rw [writeLine_frame (w := s.work) hm a]
  refine settle_onState_still
    (fun v => (v.putLine a.line ((v.lineRec a.line).written a)).withPt { v.pt with cond := (s.work.writeLine a).st.pt.cond })
    (fun _ => steadyPattern_of_no_notices hnotices) ?_ (compositionDue_of_no_notices hnotices hnotices rfl rfl rfl)
  rw [State.viewShape, State.viewShape, presented_of_no_notices hnotices, presented_of_no_notices (by exact hnotices)]

/-- Settles O32: in CONFIG the write moves one line record and the conditions of the points that its binding names. -/
theorem writeLineRebindsTheLine : Obligations.WriteLineRebindsTheLine := by
  rintro s a hempty - ⟨hs, hm⟩ h1 h2 h3 h4 h5 conflict r
  have hconflict : s.bindConflict a = true ↔ conflict := s.bindConflict_iff a
  rw [exec_writeLine hm h1 h2 h3 h4 h5]
  refine ⟨fun h => ?refused, fun h => ?accepted⟩
  case refused =>
    rw [if_pos (hconflict.2 h)]
    exact congrArg _ (request_answer s 0x14 _ _ _ hs)
  case accepted =>
    rw [if_neg (mt hconflict.1 h), request_act_replied hs, settle_writeLine hempty hm]
    have hframe := congrArg Work.st (writeLine_frame (w := s.work) hm a)
    have hactive := active_writeLine (w := s.work) hm a
    have hcond (hb : r.bound = a.bound) (hh : r.held = (r.written a).held) :
        (s.work.writeLine a).st.pt.cond = s.pt.cond := by
      rw [writeLine_config (w := s.work) hm a]
      dsimp only
      rw [if_neg (by exact not_not.2 hb), if_neg (by exact not_not.2 hh)]
      rfl
    generalize (s.work.writeLine a).st = t at hframe hactive hcond
    replace hactive (p : Pt) : t.active p =
        if r.bound ≠ a.bound then
          if ∃ u, a.bound = some u ∧ p = UserPt.pt u then (r.written a).held
          else if ∃ u, r.bound = some u ∧ p = UserPt.pt u then false else s.active p
        else if r.held ≠ (r.written a).held then
          if ∃ u, a.bound = some u ∧ p = UserPt.pt u then (r.written a).held else s.active p
        else s.active p := hactive p
    have hline (l : LineNo) : t.lineRec l = if l = a.line then r.written a else s.lineRec l := by
      rw [hframe]
      exact lineRec_putLine s a.line l _
    obtain ⟨hbound, hpolarity, hon, hoff, hlimit, hsample⟩ := r.written_config a
    obtain ⟨hstate, hqualify⟩ := r.written_qualification a
    refine ⟨_, rfl, ?frame, ?window, fun l hl => ?others, ?record, fun p hold hnew => ?conds⟩
    case frame => rw [hframe]; rfl
    case window => rw [hframe]; rfl
    case others => exact (hline l).trans (if_neg hl)
    case conds =>
      show t.active p = s.active p
      have hno : ¬∃ u, a.bound = some u ∧ p = UserPt.pt u := fun ⟨u, hu, hp⟩ => hnew u hu hp
      have hno' : ¬∃ u, r.bound = some u ∧ p = UserPt.pt u := fun ⟨u, hu, hp⟩ => hold u hu hp
      simp only [hactive, if_neg hno, if_neg hno', ite_self]
    case record =>
      have hwritten : (t.replied 0x14 a.payload .ok []).lineRec a.line = r.written a := (hline a.line).trans (if_pos rfl)
      dsimp only
      rw [hwritten]
      refine ⟨hbound, hpolarity, hon, hoff, hlimit, fun hp => ?kept, fun hp => hsample.trans (if_neg hp), fun hp => ?_,
        fun hp => ?_, fun hp => ?_, fun hp => ?_, r.written_chatter a, fun hne => ⟨fun u hu => ?freed, fun u hu => ?taken⟩,
        fun heq hheld u hu => ?moved, fun heq hheld => ?still⟩
      case kept =>
        have hrep : r.repolarized a = r.configured a := if_pos hp
        rw [hstate, hqualify, hsample, hrep]
        exact ⟨rfl, if_pos hp, rfl⟩
      iterate 4
        rw [hstate, hqualify]
        obtain ⟨hquiet, hfalling, hact, hrising⟩ := LineRec.repolarized_moves hp
        assumption
      case freed =>
        show t.active (UserPt.pt u) = false
        have hno : ¬∃ v, a.bound = some v ∧ UserPt.pt u = UserPt.pt v := by
          rintro ⟨v, hv, huv⟩
          have : u = v := Fin.ext (Fin.mk.inj huv)
          exact hne (by rw [hu, hv, this])
        simp only [hactive, if_pos hne, if_neg hno, if_pos (⟨u, hu, rfl⟩ : ∃ v, r.bound = some v ∧ UserPt.pt u = UserPt.pt v)]
      case taken =>
        show t.active (UserPt.pt u) = (r.written a).held
        simp only [hactive, if_pos hne, if_pos (⟨u, hu, rfl⟩ : ∃ v, a.bound = some v ∧ UserPt.pt u = UserPt.pt v)]
      case moved =>
        show t.active (UserPt.pt u) = (r.written a).held
        simp only [hactive, if_neg (not_not.2 heq), if_pos hheld,
          if_pos (⟨u, hu, rfl⟩ : ∃ v, a.bound = some v ∧ UserPt.pt u = UserPt.pt v)]
      case still => exact hcond heq hheld

end Sys2Proof.Machine

/-! Live notices by point: what a lookup finds after each brick of the Notice Table's operations. -/

namespace Sys2Proof.Machine

/-- The notice of a point in a list of notices. -/
def noticeAt (l : List Notice) (p : Pt) : Option Notice := l.find? fun n => n.point = p

theorem State.notice?_eq (s : State) (p : Pt) : s.notice? p = noticeAt s.nt.notices p := rfl

/-- A lookup after a change of records that keeps their points. -/
theorem noticeAt_map {f : Notice → Notice} (hf : ∀ n, (f n).point = n.point) (l : List Notice) (p : Pt) :
    noticeAt (l.map f) p = (noticeAt l p).map f := by
  simp only [noticeAt, List.find?_map, Function.comp_def, hf]

/-- A lookup after the notice of a point was taken out. -/
theorem noticeAt_filter_ne (l : List Notice) (p q : Pt) :
    noticeAt (l.filter fun m => m.point ≠ p) q = if q = p then none else noticeAt l q := by
  induction l with
  | nil => simp [noticeAt]
  | cons n rest ih =>
    simp only [noticeAt] at ih ⊢
    by_cases hp : n.point = p
    · simp only [List.filter_cons, hp, ne_eq, not_true_eq_false, decide_false, Bool.false_eq_true, if_false, ih,
        List.find?_cons]
      by_cases hq : q = p
      · simp [hq]
      · simp [hq, Ne.symm hq]
    · simp only [List.filter_cons, hp, ne_eq, not_false_eq_true, decide_true, if_true, List.find?_cons]
      by_cases hn : n.point = q
      · subst hn; simp [hp]
      · simp only [hn, decide_false, ih]

/-- A lookup after a notice was put in whose point had none. -/
theorem noticeAt_insertNotice {n : Notice} {l : List Notice} (h : ∀ m ∈ l, m.point ≠ n.point) (q : Pt) :
    noticeAt (insertNotice n l) q = if q = n.point then some n else noticeAt l q := by
  induction l with
  | nil => by_cases hq : q = n.point <;> simp [noticeAt, insertNotice, hq, eq_comm]
  | cons m rest ih =>
    have hm : m.point ≠ n.point := h m (by simp)
    have hrest := ih fun x hx => h x (by simp [hx])
    simp only [noticeAt] at hrest ⊢
    by_cases hq : q = n.point
    · subst hq
      unfold insertNotice
      split <;> simp [hm, hrest]
    · have hq' : n.point ≠ q := Ne.symm hq
      unfold insertNotice
      split
      · simp [hq']
      · simp only [List.find?_cons, hrest, hq, if_false]

/-- A record but for its arrival number, which another notice's event may renumber (R35). -/
def Notice.timeless (n : Notice) : Notice := { n with arrival := 0 }

theorem Notice.timeless_eq_iff {n m : Notice} : m.timeless = n.timeless ↔ m = { n with arrival := m.arrival } := by
  constructor
  · intro h
    simp only [Notice.timeless, Notice.mk.injEq] at h
    obtain ⟨h1, h2, h3, h4, -, h6, h7, h8, h9, h10, h11, h12, h13⟩ := h
    cases m
    simp_all
  · intro h
    rw [h]
    rfl

/-- The record of a point but for its arrival number. -/
def State.record? (s : State) (p : Pt) : Option Notice := (s.notice? p).map Notice.timeless

theorem State.record?_eq_none {s : State} {p : Pt} : s.record? p = none ↔ s.notice? p = none := by
  simp [State.record?]

/-- Where two states have the same record but for the arrival number, a notice of one is found in the other. -/
theorem holds_of_record?_eq {s t : State} {p : Pt} {n : Notice} (h : t.record? p = s.record? p) (hn : s.notice? p = some n) :
    Holds (t.notice? p) fun m => m = { n with arrival := m.arrival } := by
  rw [State.record?, State.record?, hn, Option.map_some, Option.map_eq_some_iff] at h
  obtain ⟨m, hm, he⟩ := h
  exact ⟨m, hm, Notice.timeless_eq_iff.1 he⟩

theorem record?_eq_of_notice?_eq {s t : State} {p : Pt} (h : t.notice? p = s.notice? p) : t.record? p = s.record? p := by
  rw [State.record?, h, State.record?]

/-- The phase of a record does not hang on its arrival number. -/
theorem State.record?_eq_some_iff {s : State} {p : Pt} {r : Notice} :
    s.record? p = some r ↔ ∃ n, s.notice? p = some n ∧ n.timeless = r := by
  simp [State.record?]

/-! ## The arrival counter -/

/-- R34, R35: the arrival number that each record has after the counter advanced. -/
def NoticeTable.advancedArrival (t : NoticeTable) (n : Notice) : Nat :=
  if t.arrival = 65535 then (t.notices.filter fun m => m.arrival < n.arrival).length + 1 else n.arrival

theorem NoticeTable.advance_notices (t : NoticeTable) :
    t.advance.notices = t.notices.map fun n => { n with arrival := t.advancedArrival n } := by
  unfold NoticeTable.advance NoticeTable.advancedArrival
  split
  · rfl
  · exact (List.map_id' _).symm

@[simp] theorem NoticeTable.advance_pendSet (t : NoticeTable) : t.advance.pendSet = t.pendSet := by
  unfold NoticeTable.advance; split <;> rfl

@[simp] theorem NoticeTable.advance_rev (t : NoticeTable) : t.advance.rev = t.rev := by
  unfold NoticeTable.advance; split <;> rfl

theorem noticeAt_advance (t : NoticeTable) (q : Pt) :
    noticeAt t.advance.notices q = (noticeAt t.notices q).map fun n => { n with arrival := t.advancedArrival n } := by
  rw [t.advance_notices, noticeAt_map (by exact fun _ => rfl)]

theorem noticeAt_advance_timeless (t : NoticeTable) (q : Pt) :
    (noticeAt t.advance.notices q).map Notice.timeless = (noticeAt t.notices q).map Notice.timeless := by
  rw [noticeAt_advance, Option.map_map]
  rfl

/-! ## Changes, markers, flags -/

/-- R36: a lookup after one change to the record of a point. -/
theorem noticeAt_change (t : NoticeTable) (p : Pt) {f : Notice → Notice} (hf : ∀ n, (f n).point = n.point) (q : Pt) :
    noticeAt (t.change p f).notices q =
      if q = p then (noticeAt t.notices p).map fun n => { f n with rev := t.rev + 1 } else noticeAt t.notices q := by
  have hkeep (n : Notice) : (if n.point = p then { f n with rev := t.rev + 1 } else n : Notice).point = n.point := by
    split
    · exact hf n
    · rfl
  show noticeAt (t.notices.map _) q = _
  rw [noticeAt_map hkeep]
  cases hn : noticeAt t.notices q with
  | none =>
    split
    · next h => subst h; rw [hn]; rfl
    · rfl
  | some n =>
    have hpt : n.point = q := by simpa using List.find?_some hn
    split
    · next h => subst h; rw [hn, Option.map_some, Option.map_some, if_pos hpt]
    · next h => rw [Option.map_some, if_neg (by rw [hpt]; exact h)]

@[simp] theorem Work.change_nt (w : Work) (p : Pt) (f : Notice → Notice) : (w.change p f).st.nt = w.st.nt.change p f := rfl
@[simp] theorem NoticeTable.change_pendSet (t : NoticeTable) (p : Pt) (f : Notice → Notice) : (t.change p f).pendSet = t.pendSet := rfl
@[simp] theorem NoticeTable.change_rev (t : NoticeTable) (p : Pt) (f : Notice → Notice) : (t.change p f).rev = t.rev + 1 := rfl
@[simp] theorem NoticeTable.change_arrival (t : NoticeTable) (p : Pt) (f : Notice → Notice) :
    (t.change p f).arrival = t.arrival := rfl

theorem notice?_change (w : Work) (p : Pt) {f : Notice → Notice} (hf : ∀ n, (f n).point = n.point) (q : Pt) :
    (w.change p f).st.notice? q =
      if q = p then (w.st.notice? p).map fun n => { f n with rev := w.st.nt.rev + 1 } else w.st.notice? q :=
  noticeAt_change w.st.nt p hf q

/-- A change to a record leaves everything but the table. -/
theorem Work.change_eq (w : Work) (p : Pt) (f : Notice → Notice) :
    w.change p f = { w with st := w.st.withNt (w.st.nt.change p f) } := rfl

/-- R4: the writes of a marker leave everything but the group records. -/
theorem Work.dropMarker_eq (w : Work) (n : Notice) :
    w.dropMarker n = { w with st := w.st.withPt { w.st.pt with groups := (w.dropMarker n).st.pt.groups } } := by
  unfold Work.dropMarker
  split <;> rfl

theorem Work.grantMarker_eq (w : Work) (granted : Bool) (p : Pt) :
    w.grantMarker granted p =
      { w with st := w.st.withPt { w.st.pt with groups := (w.grantMarker granted p).st.pt.groups } } := by
  unfold Work.grantMarker
  split <;> rfl

/-- R40: the markers after a notice's first-out flag went. -/
theorem groupRec_dropMarker (w : Work) (n : Notice) (g : GroupNo) :
    (w.dropMarker n).st.groupRec g =
      if n.firstOut = true ∧ w.st.groupOf n.point = some g then { w.st.groupRec g with marker := none } else w.st.groupRec g := by
  unfold Work.dropMarker
  split
  · next g' hf hg =>
    rw [groupRec_setMarker]
    by_cases h : g = g'
    · subst h; rw [if_pos rfl, if_pos ⟨hf, hg⟩]
    · rw [if_neg h, if_neg]
      rintro ⟨-, hg'⟩
      rw [hg] at hg'
      exact h (Option.some.inj hg').symm
  · next hno =>
    rw [if_neg]
    rintro ⟨hf, hg⟩
    exact hno g hf hg

/-- R38: the markers after a grant. -/
theorem groupRec_grantMarker (w : Work) (granted : Bool) (p : Pt) (g : GroupNo) :
    (w.grantMarker granted p).st.groupRec g =
      if granted = true ∧ w.st.groupOf p = some g then { w.st.groupRec g with marker := userOf p } else w.st.groupRec g := by
  unfold Work.grantMarker
  split
  · next u hu =>
    rw [groupRec_setMarker, State.groupOf, hu]
    by_cases h : g = (w.st.pointRec u).group
    · subst h; simp
    · rw [if_neg h, if_neg]
      rintro ⟨-, hg⟩
      exact h (Option.some.inj hg).symm
  · next hno =>
    rw [if_neg]
    rintro ⟨hg, hp⟩
    cases hu : userOf p with
    | none => rw [State.groupOf, hu] at hp; cases hp
    | some u => exact hno u hg hu

/-- R175: the flag bits that an event sets. -/
def AttnEvent.maskIf (e : AttnEvent) (b : Prop) [Decidable b] : Byte := if b then e.mask else 0#8

theorem Work.flag_eq (w : Work) (e : AttnEvent) :
    w.flag e = { w with st := w.st.withLink { w.st.link with flags := w.st.link.flags ||| e.mask } } := rfl

theorem Work.alertShown_eq (w : Work) (p : Pt) :
    w.alertShown p =
      { w with
        st := w.st.withLink { w.st.link with flags := w.st.link.flags ||| AttnEvent.newAlert.mask }
        alerts := p :: w.alerts } := rfl

/-! ## Creation, re-raise, removal -/

/-- R24, R34, R36: the table after a creation. -/
def NoticeTable.created (t : NoticeTable) (n : Notice) : NoticeTable :=
  { t with notices := insertNotice n t.notices, rev := t.rev + 1 }.advance

/-- R25: the table after a re-raise. -/
def NoticeTable.reRaised (t : NoticeTable) (kind : RaiseKind) (p : Pt) (granted : Bool) (field : NoticeField) : NoticeTable :=
  (t.change p fun m =>
    { m with
      phase := .alert, count := min 255 (m.count + 1), arrival := t.arrival, silenced := false, realert := none,
      firstOut := m.firstOut || granted,
      field := if kind = .link then field else m.field }).advance

/-- R30: the table after a removal. -/
def NoticeTable.removed (t : NoticeTable) (p : Pt) : NoticeTable :=
  { t with notices := t.notices.filter fun m => m.point ≠ p, rev := t.rev + 1 }

/-- What a creation changes: the table, the markers, and for an ALERT the flag NEW_ALERT and the event's list. -/
theorem Work.create_eq (w : Work) (kind : RaiseKind) (p : Pt) (phase : Phase) (field : NoticeField) :
    w.create kind p phase field =
      { w with
        st := ((w.st.withNt (w.st.nt.created (w.st.newNotice kind p phase field))).withPt
          { w.st.pt with groups := (w.create kind p phase field).st.pt.groups }).withLink
          { w.st.link with flags := w.st.link.flags ||| AttnEvent.newAlert.maskIf (phase = .alert) }
        alerts := if phase = .alert then p :: w.alerts else w.alerts } := by
  by_cases h : phase = .alert
  · have hcreate : w.create kind p phase field =
        ((w.onNt fun t => t.created (w.st.newNotice kind p phase field)).grantMarker
          (w.st.newNotice kind p phase field).firstOut p).alertShown p := if_pos h
    rw [AttnEvent.maskIf, if_pos h, if_pos h, hcreate, Work.alertShown_eq, Work.grantMarker_eq]
    rfl
  · have hcreate : w.create kind p phase field =
        (w.onNt fun t => t.created (w.st.newNotice kind p phase field)).grantMarker
          (w.st.newNotice kind p phase field).firstOut p := if_neg h
    rw [AttnEvent.maskIf, if_neg h, if_neg h, BitVec.or_zero, hcreate, Work.grantMarker_eq]
    rfl

/-- R38: the markers after a creation. -/
theorem groupRec_create (w : Work) (kind : RaiseKind) (p : Pt) (phase : Phase) (field : NoticeField) (g : GroupNo) :
    (w.create kind p phase field).st.groupRec g =
      if (w.st.newNotice kind p phase field).firstOut = true ∧ w.st.groupOf p = some g then
        { w.st.groupRec g with marker := userOf p }
      else w.st.groupRec g := by
  have hgrant := groupRec_grantMarker (w.onNt fun t => t.created (w.st.newNotice kind p phase field))
    (w.st.newNotice kind p phase field).firstOut p g
  by_cases h : phase = .alert
  · have hcreate : w.create kind p phase field =
        ((w.onNt fun t => t.created (w.st.newNotice kind p phase field)).grantMarker
          (w.st.newNotice kind p phase field).firstOut p).alertShown p := if_pos h
    rw [hcreate]
    exact hgrant
  · have hcreate : w.create kind p phase field =
        (w.onNt fun t => t.created (w.st.newNotice kind p phase field)).grantMarker
          (w.st.newNotice kind p phase field).firstOut p := if_neg h
    rw [hcreate]
    exact hgrant

/-- What a re-raise changes: the table, the markers, NEW_ALERT and the event's list. -/
theorem Work.reRaise_eq (w : Work) (kind : RaiseKind) (n : Notice) (field : NoticeField) :
    w.reRaise kind n field =
      { w with
        st := ((w.st.withNt (w.st.nt.reRaised kind n.point (w.st.grantsFirstOut kind n.point) field)).withPt
          { w.st.pt with groups := (w.reRaise kind n field).st.pt.groups }).withLink
          { w.st.link with flags := w.st.link.flags ||| AttnEvent.newAlert.mask }
        alerts := n.point :: w.alerts } := by
  have hraise : w.reRaise kind n field =
      ((w.onNt fun t => t.reRaised kind n.point (w.st.grantsFirstOut kind n.point) field).grantMarker
        (w.st.grantsFirstOut kind n.point) n.point).alertShown n.point := rfl
  rw [hraise, Work.alertShown_eq, Work.grantMarker_eq]
  rfl

theorem groupRec_reRaise (w : Work) (kind : RaiseKind) (n : Notice) (field : NoticeField) (g : GroupNo) :
    (w.reRaise kind n field).st.groupRec g =
      if w.st.grantsFirstOut kind n.point = true ∧ w.st.groupOf n.point = some g then
        { w.st.groupRec g with marker := userOf n.point }
      else w.st.groupRec g :=
  groupRec_grantMarker (w.onNt fun t => t.reRaised kind n.point (w.st.grantsFirstOut kind n.point) field) _ _ g

/-- What a removal changes: the table, a marker, and RETIRED unless the event says otherwise. -/
theorem Work.remove_eq (w : Work) (n : Notice) (announce : Bool) :
    w.remove n announce =
      { w with
        st := ((w.st.withNt (w.st.nt.removed n.point)).withPt
          { w.st.pt with groups := (w.dropMarker n).st.pt.groups }).withLink
          { w.st.link with flags := w.st.link.flags ||| AttnEvent.retired.maskIf (announce = true) } } := by
  unfold Work.remove
  dsimp only
  cases announce with
  | true => rw [if_pos rfl, Work.dropMarker_eq]; rfl
  | false =>
    rw [if_neg (by decide), AttnEvent.maskIf, if_neg (by decide), BitVec.or_zero, Work.dropMarker_eq]
    rfl

theorem groupRec_remove (w : Work) (n : Notice) (announce : Bool) (g : GroupNo) :
    (w.remove n announce).st.groupRec g =
      if n.firstOut = true ∧ w.st.groupOf n.point = some g then { w.st.groupRec g with marker := none } else w.st.groupRec g := by
  rw [← groupRec_dropMarker, Work.remove_eq]
  rfl

theorem noticeAt_removed (t : NoticeTable) (p q : Pt) :
    noticeAt (t.removed p).notices q = if q = p then none else noticeAt t.notices q := noticeAt_filter_ne t.notices p q

/-- R24: the record of each point after a creation, but for arrival numbers. -/
theorem noticeAt_created_timeless {t : NoticeTable} {n : Notice} (h : noticeAt t.notices n.point = none) (q : Pt) :
    (noticeAt (t.created n).notices q).map Notice.timeless =
      if q = n.point then some n.timeless else (noticeAt t.notices q).map Notice.timeless := by
  have hnone : ∀ m ∈ t.notices, m.point ≠ n.point := by simpa [noticeAt] using h
  rw [NoticeTable.created, noticeAt_advance_timeless]
  show (noticeAt (insertNotice n t.notices) q).map _ = _
  rw [noticeAt_insertNotice hnone]
  split <;> rfl

@[simp] theorem NoticeTable.created_pendSet (t : NoticeTable) (n : Notice) : (t.created n).pendSet = t.pendSet :=
  NoticeTable.advance_pendSet _
@[simp] theorem NoticeTable.created_rev (t : NoticeTable) (n : Notice) : (t.created n).rev = t.rev + 1 := NoticeTable.advance_rev _
@[simp] theorem NoticeTable.reRaised_pendSet (t : NoticeTable) (kind : RaiseKind) (p : Pt) (g : Bool) (f : NoticeField) :
    (t.reRaised kind p g f).pendSet = t.pendSet := NoticeTable.advance_pendSet _
@[simp] theorem NoticeTable.reRaised_rev (t : NoticeTable) (kind : RaiseKind) (p : Pt) (g : Bool) (f : NoticeField) :
    (t.reRaised kind p g f).rev = t.rev + 1 := NoticeTable.advance_rev _

/-- R25: the record of each point after a re-raise, but for arrival numbers. -/
theorem noticeAt_reRaised_timeless (t : NoticeTable) (kind : RaiseKind) (p : Pt) (granted : Bool) (field : NoticeField) (q : Pt) :
    (noticeAt (t.reRaised kind p granted field).notices q).map Notice.timeless =
      if q = p then
        (noticeAt t.notices p).map fun m =>
          { m with
            phase := .alert, count := min 255 (m.count + 1), arrival := 0, silenced := false, realert := none,
            firstOut := m.firstOut || granted, field := if kind = .link then field else m.field, rev := t.rev + 1 }
      else (noticeAt t.notices q).map Notice.timeless := by
  rw [NoticeTable.reRaised, noticeAt_advance_timeless, noticeAt_change _ _ (by exact fun _ => rfl)]
  split
  · rw [Option.map_map]; rfl
  · rfl

end Sys2Proof.Machine

/-! The lists of the Notice Table (R24, R57, R60): order, capacity and the Pending Set, kept by every operation. -/

namespace Sys2Proof.Machine

/-- The points of the live notices, in the table's order. -/
def NoticeTable.points (t : NoticeTable) : List Pt := t.notices.map (·.point)

/-- R57: how many of the live notices are of user points. -/
def NoticeTable.users (t : NoticeTable) : Nat := (t.points.filter fun p => (userOf p).isSome).length

theorem State.userCount_eq (s : State) : s.userCount = s.nt.users := by
  rw [State.userCount, NoticeTable.users, NoticeTable.points, List.filter_map, List.length_map]
  rfl

theorem State.notice?_eq_none_iff (s : State) (p : Pt) : s.notice? p = none ↔ p ∉ s.nt.points := by
  rw [notice?_none, NoticeTable.points, List.mem_map]
  constructor
  · rintro h ⟨n, hn, rfl⟩
    exact h n hn rfl
  · intro h n hn he
    exact h ⟨n, hn, he⟩

/-- The lists of the table: ascending, within capacity, and no pending point with a notice. -/
structure NoticeTable.Lists (t : NoticeTable) : Prop where
  ascending : t.points.Pairwise (· < ·)
  pendAscending : t.pendSet.Pairwise (· < ·)
  capacity : t.users ≤ Config.userRecords
  apart : ∀ u ∈ t.pendSet, UserPt.pt u ∉ t.points

/-- R60: a point waits only while all user records are in use. -/
def NoticeTable.Filled (t : NoticeTable) : Prop := t.pendSet ≠ [] → t.users = Config.userRecords

theorem State.tableOk_iff (s : State) :
    s.TableOk ↔ s.nt.Lists ∧ s.nt.Filled ∧ (s.active panelOverflow = true ↔ s.nt.pendSet ≠ []) := by
  have hasc : (s.nt.notices.Pairwise fun a b => a.point < b.point) ↔ s.nt.points.Pairwise (· < ·) := List.pairwise_map.symm
  have happart : (∀ u ∈ s.nt.pendSet, s.notice? (UserPt.pt u) = none) ↔ ∀ u ∈ s.nt.pendSet, UserPt.pt u ∉ s.nt.points := by
    simp only [State.notice?_eq_none_iff]
  constructor
  · rintro ⟨h1, h2, h3, h4, h5, h6⟩
    rw [State.userCount_eq] at h3 h5
    exact ⟨⟨hasc.1 h1, h2, h3, happart.1 h4⟩, h5, h6⟩
  · rintro ⟨⟨h1, h2, h3, h4⟩, h5, h6⟩
    rw [← State.userCount_eq] at h3
    unfold NoticeTable.Filled at h5
    rw [← State.userCount_eq] at h5
    exact ⟨hasc.2 h1, h2, h3, happart.2 h4, h5, h6⟩

/-- What the lists say depends on the points and the Pending Set alone. -/
theorem NoticeTable.Lists.congr {t t' : NoticeTable} (h : t.Lists) (hp : t'.points = t.points) (hs : t'.pendSet = t.pendSet) :
    t'.Lists := by
  obtain ⟨h1, h2, h3, h4⟩ := h
  refine ⟨?_, ?_, ?_, ?_⟩
  · rw [hp]; exact h1
  · rw [hs]; exact h2
  · rw [NoticeTable.users, hp]; exact h3
  · rw [hp, hs]; exact h4

theorem NoticeTable.users_congr {t t' : NoticeTable} (hp : t'.points = t.points) : t'.users = t.users := by
  rw [NoticeTable.users, hp]; rfl

/-- TableOk reads the points, the Pending Set and the condition of point 129 alone. -/
theorem State.TableOk.congr {s t : State} (h : s.TableOk) (hp : t.nt.points = s.nt.points) (hs : t.nt.pendSet = s.nt.pendSet)
    (hc : t.active panelOverflow = s.active panelOverflow) : t.TableOk := by
  obtain ⟨hl, hf, ho⟩ := s.tableOk_iff.1 h
  refine t.tableOk_iff.2 ⟨hl.congr hp hs, ?_, ?_⟩
  · rw [NoticeTable.Filled, hs, NoticeTable.users_congr hp]; exact hf
  · rw [hc, hs]; exact ho

theorem points_map {f : Notice → Notice} (hf : ∀ n, (f n).point = n.point) (l : List Notice) :
    (l.map f).map (·.point) = l.map (·.point) := by
  simp [hf]

@[simp] theorem NoticeTable.points_change (t : NoticeTable) (p : Pt) {f : Notice → Notice} (hf : ∀ n, (f n).point = n.point) :
    (t.change p f).points = t.points := by
  refine points_map (fun n => ?_) t.notices
  dsimp only
  split
  · exact hf n
  · rfl

@[simp] theorem NoticeTable.points_advance (t : NoticeTable) : t.advance.points = t.points := by
  rw [NoticeTable.points, t.advance_notices]
  exact points_map (f := fun n => { n with arrival := t.advancedArrival n }) (fun _ => rfl) t.notices

@[simp] theorem NoticeTable.points_reRaised (t : NoticeTable) (kind : RaiseKind) (p : Pt) (g : Bool) (f : NoticeField) :
    (t.reRaised kind p g f).points = t.points := by
  rw [NoticeTable.reRaised, NoticeTable.points_advance]
  exact NoticeTable.points_change t p fun _ => rfl

theorem NoticeTable.points_removed (t : NoticeTable) (p : Pt) : (t.removed p).points = t.points.filter (· ≠ p) := by
  rw [NoticeTable.points, NoticeTable.points, NoticeTable.removed, List.filter_map]
  rfl

theorem NoticeTable.mem_points_removed (t : NoticeTable) (p q : Pt) : q ∈ (t.removed p).points ↔ q ∈ t.points ∧ q ≠ p := by
  simp [NoticeTable.points_removed]

theorem NoticeTable.points_created (t : NoticeTable) (n : Notice) : (t.created n).points = (insertNotice n t.notices).map (·.point) :=
  NoticeTable.points_advance _

theorem perm_insertNotice (n : Notice) (l : List Notice) : (insertNotice n l).Perm (n :: l) := by
  induction l with
  | nil => exact .refl _
  | cons m rest ih =>
    unfold insertNotice
    split
    · exact .refl _
    · exact (List.Perm.cons m ih).trans (.swap n m rest)

theorem NoticeTable.perm_points_created (t : NoticeTable) (n : Notice) : (t.created n).points.Perm (n.point :: t.points) := by
  rw [NoticeTable.points_created]
  exact (perm_insertNotice n t.notices).map _

theorem NoticeTable.mem_points_created (t : NoticeTable) (n : Notice) (q : Pt) :
    q ∈ (t.created n).points ↔ q = n.point ∨ q ∈ t.points := by
  rw [(t.perm_points_created n).mem_iff, List.mem_cons]

/-- R57: the user records in use after a creation. -/
theorem NoticeTable.users_created (t : NoticeTable) (n : Notice) :
    (t.created n).users = if (userOf n.point).isSome then t.users + 1 else t.users := by
  rw [NoticeTable.users, ((t.perm_points_created n).filter _).length_eq, List.filter_cons]
  split <;> rfl

/-- R57: the user records in use after a removal. -/
theorem NoticeTable.users_removed {t : NoticeTable} (h : t.points.Pairwise (· < ·)) {p : Pt} (hp : p ∈ t.points) :
    t.users = if (userOf p).isSome then (t.removed p).users + 1 else (t.removed p).users := by
  have hnodup : t.points.Nodup := h.imp fun hlt => ne_of_lt hlt
  have herase : t.points.filter (· ≠ p) = t.points.erase p := by
    rw [hnodup.erase_eq_filter]
    congr 1
    funext q
    by_cases hq : q = p <;> simp [hq]
  have hperm : t.points.Perm (p :: (t.removed p).points) := by
    rw [t.points_removed, herase]
    exact List.perm_cons_erase hp
  rw [NoticeTable.users, (hperm.filter _).length_eq, List.filter_cons]
  split <;> rfl

theorem NoticeTable.Lists.created {t : NoticeTable} (h : t.Lists) {n : Notice} (hn : n.point ∉ t.points)
    (hroom : (userOf n.point).isSome = true → t.users < Config.userRecords) (hpend : ∀ u ∈ t.pendSet, UserPt.pt u ≠ n.point) :
    (t.created n).Lists := by
  refine ⟨?_, ?_, ?_, ?_⟩
  · rw [NoticeTable.points_created, List.pairwise_map]
    refine pairwise_insertNotice n t.notices (List.pairwise_map.1 h.ascending) fun m hm he => hn ?_
    exact List.mem_map.2 ⟨m, hm, he⟩
  · rw [NoticeTable.created_pendSet]; exact h.pendAscending
  · rw [NoticeTable.users_created]
    have hcap := h.capacity
    split
    · next hu => exact hroom hu
    · exact hcap
  · intro u hu
    rw [NoticeTable.created_pendSet] at hu
    rw [NoticeTable.mem_points_created]
    rintro (he | hm)
    · exact hpend u hu he
    · exact h.apart u hu hm

theorem NoticeTable.Lists.removed {t : NoticeTable} (h : t.Lists) (p : Pt) : (t.removed p).Lists := by
  have hsub : (t.removed p).points.Sublist t.points := by
    rw [t.points_removed]
    exact List.filter_sublist
  refine ⟨h.ascending.sublist hsub, h.pendAscending, ?_, fun u hu hm => h.apart u hu (hsub.subset hm)⟩
  exact le_trans (hsub.filter _).length_le h.capacity

/-- Fewer members wait. -/
theorem NoticeTable.Lists.filterPend {t : NoticeTable} (h : t.Lists) (keep : UserPt → Bool) :
    ({ t with pendSet := t.pendSet.filter keep } : NoticeTable).Lists :=
  ⟨h.ascending, h.pendAscending.sublist List.filter_sublist, h.capacity, fun u hu => h.apart u (List.mem_filter.1 hu).1⟩

/-- One more member waits, that has no notice. -/
theorem NoticeTable.Lists.insertPend {t : NoticeTable} (h : t.Lists) {u : UserPt} (hu : UserPt.pt u ∉ t.points) :
    ({ t with pendSet := insertPoint u t.pendSet } : NoticeTable).Lists := by
  refine ⟨h.ascending, pairwise_insertPoint u _ h.pendAscending, h.capacity, fun v hv => ?_⟩
  rcases (mem_insertPoint u v t.pendSet).1 hv with rfl | hv
  · exact hu
  · exact h.apart v hv

/-! ## Points as user points -/

theorem userOf_eq_some_iff (p : Pt) (u : UserPt) : userOf p = some u ↔ p = UserPt.pt u := by
  unfold userOf
  split
  · next h =>
    rw [Option.some.injEq]
    exact ⟨fun e => by subst e; rfl, fun e => by subst e; rfl⟩
  · next h =>
    constructor
    · intro e; cases e
    · rintro rfl; exact absurd u.isLt h

@[simp] theorem userOf_pt (u : UserPt) : userOf (UserPt.pt u) = some u := (userOf_eq_some_iff _ _).2 rfl
@[simp] theorem userOf_hostSilent : userOf hostSilent = none := rfl
@[simp] theorem userOf_panelOverflow : userOf panelOverflow = none := rfl

theorem pt_injective : Function.Injective UserPt.pt := fun _ _ h => Fin.ext (Fin.mk.inj h)

@[simp] theorem pt_inj {u v : UserPt} : UserPt.pt u = UserPt.pt v ↔ u = v := pt_injective.eq_iff

theorem pt_ne_of_userOf_none {p : Pt} (h : userOf p = none) (u : UserPt) : UserPt.pt u ≠ p := by
  rintro rfl
  simp at h

@[simp] theorem pt_ne_panelOverflow (u : UserPt) : UserPt.pt u ≠ panelOverflow := pt_ne_of_userOf_none rfl u
@[simp] theorem pt_ne_hostSilent (u : UserPt) : UserPt.pt u ≠ hostSilent := pt_ne_of_userOf_none rfl u

@[simp] theorem groupOf_of_userOf_none (s : State) {p : Pt} (h : userOf p = none) : s.groupOf p = none := by
  rw [State.groupOf, h]; rfl

@[simp] theorem groupOf_pt (s : State) (u : UserPt) : s.groupOf (UserPt.pt u) = some (s.pointRec u).group := by
  rw [State.groupOf, userOf_pt]; rfl

@[simp] theorem classOf_pt (s : State) (u : UserPt) : s.classOf (UserPt.pt u) = (s.pointRec u).cls := by
  rw [State.classOf, userOf_pt]

@[simp] theorem seqOf_pt (s : State) (u : UserPt) : s.seqOf (UserPt.pt u) = (s.pointRec u).seq := by
  rw [State.seqOf, userOf_pt]

@[simp] theorem parentOf_pt (s : State) (u : UserPt) : s.parentOf (UserPt.pt u) = (s.pointRec u).parent := by
  rw [State.parentOf, userOf_pt]; rfl

/-! ## A raise at the table, and the clear of a system notice -/

/-- What a raise at the table leaves as it was beside the points: the conditions and the Pending Set. -/
theorem raiseNotice_keeps (w : Work) (kind : RaiseKind) (p : Pt) (f : NoticeField) :
    (w.raiseNotice kind p f).st.pt.cond = w.st.pt.cond ∧ (w.raiseNotice kind p f).st.nt.pendSet = w.st.nt.pendSet := by
  unfold Work.raiseNotice
  split
  · rw [Work.create_eq]; exact ⟨rfl, NoticeTable.created_pendSet _ _⟩
  · have hrefresh (n : Notice) :
        (w.refresh kind n f).st.pt.cond = w.st.pt.cond ∧ (w.refresh kind n f).st.nt.pendSet = w.st.nt.pendSet := by
      unfold Work.refresh; split <;> exact ⟨rfl, rfl⟩
    have hreRaise (n : Notice) :
        (w.reRaise kind n f).st.pt.cond = w.st.pt.cond ∧ (w.reRaise kind n f).st.nt.pendSet = w.st.nt.pendSet := by
      rw [Work.reRaise_eq]; exact ⟨rfl, NoticeTable.reRaised_pendSet _ _ _ _ _⟩
    split
    · exact hrefresh _
    · exact hrefresh _
    · exact hreRaise _
    · exact hreRaise _

/-- R24: a raise of a point with a notice adds none. -/
theorem points_raiseNotice_live {w : Work} {p : Pt} {n : Notice} (h : w.st.notice? p = some n) (kind : RaiseKind) (f : NoticeField) :
    (w.raiseNotice kind p f).st.nt.points = w.st.nt.points := by
  have hrefresh : (w.refresh kind n f).st.nt.points = w.st.nt.points := by
    unfold Work.refresh
    split
    · exact NoticeTable.points_change _ _ fun _ => rfl
    · rfl
  have hreRaise : (w.reRaise kind n f).st.nt.points = w.st.nt.points := by
    rw [Work.reRaise_eq]; exact NoticeTable.points_reRaised _ _ _ _ _
  unfold Work.raiseNotice
  rw [h]
  dsimp only
  split
  · exact hrefresh
  · exact hrefresh
  · exact hreRaise
  · exact hreRaise

/-- R24: a raise of a point without one creates it. -/
theorem nt_raiseNotice_new {w : Work} {p : Pt} (h : w.st.notice? p = none) (kind : RaiseKind) (f : NoticeField) :
    (w.raiseNotice kind p f).st.nt = w.st.nt.created (w.st.newNotice kind p (w.st.classOf p).raisedPhase f) := by
  unfold Work.raiseNotice
  rw [h]
  dsimp only
  rw [Work.create_eq]
  rfl

/-- What a raise at the table does to the lists. -/
theorem lists_raiseNotice {w : Work} {p : Pt} (h : w.st.nt.Lists)
    (hroom : w.st.notice? p = none → (userOf p).isSome = true → w.st.nt.users < Config.userRecords)
    (hpend : w.st.notice? p = none → ∀ u ∈ w.st.nt.pendSet, UserPt.pt u ≠ p) (kind : RaiseKind) (f : NoticeField) :
    (w.raiseNotice kind p f).st.nt.Lists ∧
      (w.raiseNotice kind p f).st.nt.users =
        if w.st.notice? p = none ∧ (userOf p).isSome = true then w.st.nt.users + 1 else w.st.nt.users := by
  cases hn : w.st.notice? p with
  | none =>
    rw [nt_raiseNotice_new hn]
    refine ⟨h.created ((State.notice?_eq_none_iff _ _).1 hn) (hroom hn) (hpend hn), ?_⟩
    rw [NoticeTable.users_created]
    by_cases hu : (userOf p).isSome = true <;> simp [State.newNotice, hu]
  | some n =>
    have hpts := points_raiseNotice_live hn kind f
    exact ⟨h.congr hpts (raiseNotice_keeps w kind p f).2, by rw [NoticeTable.users_congr hpts]; simp⟩

theorem clearSystem_keeps (w : Work) (p : Pt) :
    (w.clearSystem p).st.pt.cond = w.st.pt.cond ∧ (w.clearSystem p).st.nt.pendSet = w.st.nt.pendSet := by
  unfold Work.clearSystem
  split
  · exact ⟨rfl, rfl⟩
  · split
    · exact ⟨rfl, rfl⟩
    · rw [Work.remove_eq]; exact ⟨rfl, rfl⟩
    · exact ⟨rfl, rfl⟩
    · exact ⟨rfl, rfl⟩

theorem lists_clearSystem {w : Work} {p : Pt} (hp : userOf p = none) (h : w.st.nt.Lists) :
    (w.clearSystem p).st.nt.Lists ∧ (w.clearSystem p).st.nt.users = w.st.nt.users := by
  unfold Work.clearSystem
  split
  · exact ⟨h, rfl⟩
  · next n hn =>
    obtain ⟨hmem, hpt⟩ := notice?_some hn
    split
    · have hpts : (w.st.nt.change p fun m => { m with phase := .fleeting }).points = w.st.nt.points :=
        NoticeTable.points_change _ _ fun _ => rfl
      exact ⟨h.congr hpts rfl, NoticeTable.users_congr hpts⟩
    · rw [Work.remove_eq]
      refine ⟨h.removed _, ?_⟩
      have husers := NoticeTable.users_removed h.ascending (List.mem_map.2 ⟨n, hmem, rfl⟩)
      rw [hpt, hp] at husers
      rw [hpt]
      exact husers.symm
    · exact ⟨h, rfl⟩
    · exact ⟨h, rfl⟩

/-- The condition of a system point takes its value, and no other does; the Pending Set stands. -/
theorem setSystem_keeps (w : Work) (p : Pt) (v : Bool) :
    (∀ q, (w.setSystem p v).st.active q = if q = p then v else w.st.active q) ∧
      (w.setSystem p v).st.nt.pendSet = w.st.nt.pendSet := by
  have hput := active_putCond w p
  unfold Work.setSystem
  split
  · next h => exact ⟨fun q => by split <;> simp_all, rfl⟩
  · dsimp only
    split
    · split
      · next hv =>
        subst hv
        obtain ⟨hc, hp⟩ := raiseNotice_keeps (w.putCond p true) .system p .none
        exact ⟨fun q => by rw [State.active, hc]; exact hput q true, hp⟩
      · next hv =>
        obtain ⟨hc, hp⟩ := clearSystem_keeps (w.putCond p v) p
        exact ⟨fun q => by rw [State.active, hc]; exact hput q v, hp⟩
    · exact ⟨fun q => hput q v, rfl⟩

/-- R3, R57: a system point takes no user record. -/
theorem lists_setSystem {w : Work} {p : Pt} (hp : userOf p = none) (h : w.st.nt.Lists) (v : Bool) :
    (w.setSystem p v).st.nt.Lists ∧ (w.setSystem p v).st.nt.users = w.st.nt.users := by
  unfold Work.setSystem
  split
  · exact ⟨h, rfl⟩
  · dsimp only
    split
    · split
      · have hraise := lists_raiseNotice (w := w.putCond p v) (p := p) h (fun _ hu => by rw [hp] at hu; cases hu)
          (fun _ u _ => pt_ne_of_userOf_none hp u) .system .none
        refine ⟨hraise.1, hraise.2.trans ?_⟩
        rw [hp]
        simp
        rfl
      · exact lists_clearSystem hp (w := w.putCond p v) h
    · exact ⟨h, rfl⟩

/-! ## TableOk and the operations of one event -/

/-- R5: setting a system condition other than 129's keeps the table. -/
theorem tableOk_setHostSilent {w : Work} (h : w.st.TableOk) (v : Bool) : (w.setSystem hostSilent v).st.TableOk := by
  obtain ⟨hl, hf, ho⟩ := w.st.tableOk_iff.1 h
  obtain ⟨hl', hu⟩ := lists_setSystem (p := hostSilent) rfl hl v
  obtain ⟨hc, hp⟩ := setSystem_keeps w hostSilent v
  refine (State.tableOk_iff _).2 ⟨hl', ?_, ?_⟩
  · rw [NoticeTable.Filled, hp, hu]; exact hf
  · rw [hc, if_neg (by decide), hp]; exact ho

/-- R61, R63, R69: 129's condition set to say whether points wait completes the table. -/
theorem tableOk_setOverflow {w : Work} (hl : w.st.nt.Lists) (hf : w.st.nt.Filled) {v : Bool}
    (hv : v = true ↔ w.st.nt.pendSet ≠ []) : (w.setSystem panelOverflow v).st.TableOk := by
  obtain ⟨hl', hu⟩ := lists_setSystem (p := panelOverflow) rfl hl v
  obtain ⟨hc, hp⟩ := setSystem_keeps w panelOverflow v
  refine (State.tableOk_iff _).2 ⟨hl', ?_, ?_⟩
  · rw [NoticeTable.Filled, hp, hu]; exact hf
  · rw [hc, if_pos rfl, hp]; exact hv

/-- R61: a point without a notice enters the Pending Set of a full table. -/
theorem tableOk_pend {w : Work} (h : w.st.TableOk) {u : UserPt} (hu : w.st.notice? (UserPt.pt u) = none)
    (hfull : w.st.nt.users = Config.userRecords) : (w.pend u).st.TableOk := by
  obtain ⟨hl, hf, ho⟩ := w.st.tableOk_iff.1 h
  have hl' := hl.insertPend ((State.notice?_eq_none_iff _ _).1 hu)
  have hne : insertPoint u w.st.nt.pendSet ≠ [] := insertPoint_ne_nil _ _
  unfold Work.pend
  dsimp only
  split
  · exact (tableOk_setOverflow (w := w.onNt fun t => { t with pendSet := insertPoint u t.pendSet }) hl' (fun _ => hfull)
      (v := true) (iff_of_true rfl hne)).congr rfl rfl rfl
  · next hne' => exact (State.tableOk_iff _).2 ⟨hl', fun _ => hfull, iff_of_true (ho.2 hne') hne⟩

/-- R63: members leave the Pending Set. -/
theorem tableOk_withdraw {w : Work} (h : w.st.TableOk) (gone : UserPt → Bool) : (w.withdraw gone).st.TableOk := by
  obtain ⟨hl, hf, ho⟩ := w.st.tableOk_iff.1 h
  have hl' := hl.filterPend fun u => !gone u
  have hf' : ({ w.st.nt with pendSet := w.st.nt.pendSet.filter fun u => !gone u } : NoticeTable).Filled := fun hne =>
    hf fun he => hne (by rw [he]; rfl)
  unfold Work.withdraw
  split
  · dsimp only
    split
    · next he => exact tableOk_setOverflow (w := w.onNt fun t => { t with pendSet := t.pendSet.filter fun u => !gone u }) hl' hf' (v := false) (iff_of_false (by decide) (not_not.2 he))
    · next hne =>
      refine (State.tableOk_iff _).2 ⟨hl', hf', iff_of_true (ho.2 fun he => hne ?_) hne⟩
      show w.st.nt.pendSet.filter _ = []
      rw [he]; rfl
  · exact h

/-- R64 to R66: the arbiter's offer fills the record that a retirement freed. -/
theorem tableOk_offerRecord {w : Work} (hl : w.st.nt.Lists) (hfree : w.st.nt.pendSet ≠ [] → w.st.nt.users + 1 = Config.userRecords)
    (ho : w.st.active panelOverflow = true ↔ w.st.nt.pendSet ≠ []) : w.offerRecord.st.TableOk := by
  unfold Work.offerRecord
  split
  · next hnone =>
    have he := (State.arbiterPick_eq_none_iff _).1 hnone
    exact (State.tableOk_iff _).2 ⟨hl, fun hne => absurd he hne, ho⟩
  · next u hpick =>
    obtain ⟨hu, -⟩ := State.arbiterPick_spec hl.pendAscending hpick
    have hne : w.st.nt.pendSet ≠ [] := List.ne_nil_of_mem hu
    have hroom := hfree hne
    dsimp only
    have hnt := congrArg (fun x : Work => x.st.nt) (Work.create_eq
      (w.onNt fun t => { t with pendSet := t.pendSet.filter fun v => v ≠ u }) .admission (UserPt.pt u) (w.st.admissionPhase u) .none)
    have hcond : ((w.onNt fun t => { t with pendSet := t.pendSet.filter fun v => v ≠ u }).create .admission (UserPt.pt u)
        (w.st.admissionPhase u) .none).st.pt.cond = w.st.pt.cond := by rw [Work.create_eq]; rfl
    dsimp only at hnt
    generalize ((w.onNt fun t => { t with pendSet := t.pendSet.filter fun v => v ≠ u }).create .admission (UserPt.pt u)
      (w.st.admissionPhase u) .none) = w2 at hnt hcond
    have hl1 := hl.filterPend fun v => v ≠ u
    have hl2 : w2.st.nt.Lists := by
      rw [hnt]
      refine hl1.created (hl.apart u hu) (fun _ => ?_) fun v hv he => ?_
      · show w.st.nt.users < _
        omega
      · exact absurd (pt_inj.1 he) (by simpa using (List.mem_filter.1 hv).2)
    have hu2 : w2.st.nt.users = Config.userRecords := by
      rw [hnt]
      refine (NoticeTable.users_created _ _).trans ?_
      rw [show (userOf (Notice.point _)).isSome = true from by rw [State.newNotice]; simp]
      exact hroom
    split
    · next he => exact tableOk_setOverflow hl2 (fun _ => hu2) (iff_of_false (by decide) (not_not.2 he))
    · next hne2 =>
      refine (State.tableOk_iff _).2 ⟨hl2, fun _ => hu2, iff_of_true ?_ hne2⟩
      rw [State.active, hcond]
      exact ho.2 hne

/-- R30, R64: a retirement, with the admission that a freed user record brings. -/
theorem tableOk_retire {w : Work} (h : w.st.TableOk) {n : Notice} (hn : n ∈ w.st.nt.notices) : (w.retire n).st.TableOk := by
  obtain ⟨hl, hf, ho⟩ := w.st.tableOk_iff.1 h
  have hmem : n.point ∈ w.st.nt.points := List.mem_map.2 ⟨n, hn, rfl⟩
  have husers := NoticeTable.users_removed hl.ascending hmem
  have heq := Work.remove_eq w n true
  have hnt : (w.remove n true).st.nt = w.st.nt.removed n.point := by rw [heq]; rfl
  have hcond : (w.remove n true).st.active panelOverflow = w.st.active panelOverflow := by rw [heq]; rfl
  have hl' : (w.remove n true).st.nt.Lists := by rw [hnt]; exact hl.removed _
  have hpend : (w.remove n true).st.nt.pendSet = w.st.nt.pendSet := by rw [hnt]; rfl
  unfold Work.retire
  dsimp only
  split
  · next huser =>
    rw [if_pos huser] at husers
    refine tableOk_offerRecord hl' (fun hne => ?_) ?_
    · rw [hnt, ← husers]
      rw [hpend] at hne
      exact hf hne
    · rw [hcond, hpend]; exact ho
  · next hsystem =>
    rw [if_neg hsystem] at husers
    refine (State.tableOk_iff _).2 ⟨hl', ?_, ?_⟩
    · rw [NoticeTable.Filled, hpend, hnt, ← husers]; exact hf
    · rw [hcond, hpend]; exact ho

/-- A change of a record that keeps its point. -/
theorem tableOk_change {w : Work} (h : w.st.TableOk) (p : Pt) {f : Notice → Notice} (hf : ∀ n, (f n).point = n.point) :
    (w.change p f).st.TableOk := h.congr (NoticeTable.points_change _ _ hf) rfl rfl

/-- R57, R61: a raise of a user point creates, raises again, or waits. -/
theorem tableOk_raiseUser {w : Work} (h : w.st.TableOk) (kind : RaiseKind) (u : UserPt) (f : NoticeField) :
    (w.raiseUser kind u f).st.TableOk := by
  obtain ⟨hl, hf, ho⟩ := w.st.tableOk_iff.1 h
  unfold Work.raiseUser
  split
  · next hwait =>
    simp only [Bool.and_eq_true, Option.isNone_iff_eq_none, State.tableFull, decide_eq_true_eq, State.userCount_eq] at hwait
    exact tableOk_pend h hwait.1 (le_antisymm hl.capacity hwait.2)
  · next hroom =>
    have hlt : w.st.notice? (UserPt.pt u) = none → w.st.nt.users < Config.userRecords := by
      intro hn
      rw [hn] at hroom
      simpa [State.tableFull, State.userCount_eq] using hroom
    have hpend : w.st.notice? (UserPt.pt u) = none → w.st.nt.pendSet = [] := fun hn => by
      by_contra hne
      have := hf hne
      have := hlt hn
      omega
    obtain ⟨hl', hu'⟩ := lists_raiseNotice (p := UserPt.pt u) hl (fun hn _ => hlt hn)
      (fun hn v hv => by rw [hpend hn] at hv; cases hv) kind f
    obtain ⟨hc, hp⟩ := raiseNotice_keeps w kind (UserPt.pt u) f
    refine (State.tableOk_iff _).2 ⟨hl', fun hne => ?_, ?_⟩
    · rw [hp] at hne
      rw [hu', if_neg fun hn => hne (hpend hn.1)]
      exact hf hne
    · rw [State.active, hc, hp]; exact ho

theorem tableOk_clearUser {w : Work} (h : w.st.TableOk) (u : UserPt) : (w.clearUser u).st.TableOk := by
  unfold Work.clearUser
  split
  · split
    · exact tableOk_withdraw h _
    · exact h
  · next n hn =>
    have hmem := (notice?_some hn).1
    split
    · exact tableOk_retire h hmem
    · split
      · exact tableOk_change h _ fun _ => rfl
      · split
        · exact tableOk_retire h hmem
        · exact tableOk_change h _ fun _ => rfl
      · exact h
      · exact h

theorem tableOk_acked {w : Work} (h : w.st.TableOk) (n : Notice) (phase : Phase) : (w.acked n phase).st.TableOk := by
  have hdrop : (w.dropMarker n).st.TableOk := by
    rw [Work.dropMarker_eq]
    exact h.congr rfl rfl rfl
  exact tableOk_change hdrop _ fun _ => rfl

theorem tableOk_ack {w : Work} (h : w.st.TableOk) (p : Pt) : (w.ack p).st.TableOk := by
  unfold Work.ack
  split
  · exact h
  · next n hn =>
    have hmem := (notice?_some hn).1
    split
    · exact h
    · split
      · exact tableOk_acked h _ _
      · exact h
      · split
        · exact tableOk_acked h _ _
        · exact tableOk_retire h hmem
      · split
        · exact tableOk_retire h hmem
        · exact h

theorem tableOk_resetAt {w : Work} (h : w.st.TableOk) (p : Pt) : (w.resetAt p).st.TableOk := by
  unfold Work.resetAt
  split
  · exact h
  · next n hn =>
    split
    · exact tableOk_retire h (notice?_some hn).1
    · exact h

theorem tableOk_setStale {w : Work} (h : w.st.TableOk) (v : Bool) (p : Pt) : (w.setStale v p).st.TableOk := by
  unfold Work.setStale
  split
  · split
    · exact h
    · exact tableOk_change h _ fun _ => rfl
  · exact h

theorem tableOk_setChattering {w : Work} (h : w.st.TableOk) (v : Bool) (p : Pt) : (w.setChattering v p).st.TableOk := by
  unfold Work.setChattering
  split
  · split
    · exact h
    · exact tableOk_change h _ fun _ => rfl
  · exact h

/-- R83: a return to view changes the record and the flags alone. -/
theorem nt_returnToView (w : Work) (p : Pt) :
    (w.returnToView p).st.nt =
        (match w.st.notice? p with
        | none => w.st.nt
        | some n =>
          if w.st.withheld p = false ∧ n.phase.unseen = true ∧ n.silenced = true then
            w.st.nt.change p fun m => { m with silenced := false, realert := none }
          else w.st.nt) ∧
      (w.returnToView p).st.pt = w.st.pt := by
  unfold Work.returnToView Work.reannounce
  cases hw : w.st.withheld p <;> cases hn : w.st.notice? p with
  | none => exact ⟨rfl, rfl⟩
  | some n => cases hu : n.phase.unseen <;> cases hs : n.silenced <;> by_cases ha : n.phase = .alert <;> simp [hu, hs, ha] <;> exact ⟨rfl, rfl⟩

theorem tableOk_returnToView {w : Work} (h : w.st.TableOk) (p : Pt) : (w.returnToView p).st.TableOk := by
  obtain ⟨hnt, hpt⟩ := nt_returnToView w p
  have hpoints : (w.returnToView p).st.nt.points = w.st.nt.points ∧ (w.returnToView p).st.nt.pendSet = w.st.nt.pendSet := by
    rw [hnt]
    split
    · exact ⟨rfl, rfl⟩
    · split
      · exact ⟨NoticeTable.points_change _ _ fun _ => rfl, rfl⟩
      · exact ⟨rfl, rfl⟩
  exact h.congr hpoints.1 hpoints.2 (by rw [State.active, hpt]; rfl)

/-- A property that one operation keeps is kept by many, one after another. -/
theorem foldl_keeps {α : Type} {P : Work → Prop} {f : Work → α → Work} (hf : ∀ w x, P w → P (f w x)) (l : List α) :
    ∀ {w : Work}, P w → P (l.foldl f w) := by
  induction l with
  | nil => exact fun h => h
  | cons x rest ih => exact fun h => ih (hf _ x h)

theorem tableOk_releaseAll {w : Work} (h : w.st.TableOk) (children : List Pt) : (w.releaseAll children).st.TableOk :=
  foldl_keeps (P := fun w => w.st.TableOk) (fun _ p h => tableOk_returnToView h p) children h

/-- R5: the condition of a user point is none of what TableOk reads. -/
theorem tableOk_putCond {w : Work} (h : w.st.TableOk) (u : UserPt) (v : Bool) : (w.putCond (UserPt.pt u) v).st.TableOk :=
  h.congr rfl rfl (by rw [active_putCond, if_neg (pt_ne_panelOverflow u).symm])

/-- R5, R6: the edge that a condition's change delivers, once the condition is set. -/
def Work.edged (w : Work) (u : UserPt) (v edge : Bool) : Work :=
  if edge && w.st.delivers (UserPt.pt u) then (if v then w.raiseUser .line u .none else w.clearUser u) else w

theorem tableStep_edged (w : Work) (u : UserPt) (v edge : Bool) : TableStep w.st (w.edged u v edge).st := by
  unfold Work.edged
  split
  · split
    · exact tableStep_raiseUser _ _ _ _
    · exact tableStep_clearUser _ _
  · exact .refl _

/-- R5, R6, R81: a condition that changes is set, its edge delivered, and in RUN its children released. -/
theorem setUser_changes {w : Work} {u : UserPt} {v : Bool} (h : w.st.active (UserPt.pt u) ≠ v) (edge : Bool) :
    w.setUser u v edge =
      if w.st.ctl.mode = .run then
        ((w.putCond (UserPt.pt u) v).edged u v edge).releaseAll (if v then [] else w.st.liveChildren u)
      else (w.putCond (UserPt.pt u) v).edged u v edge := by
  have hmode : ((w.putCond (UserPt.pt u) v).edged u v edge).st.ctl = w.st.ctl := (tableStep_edged _ u v edge).ctl
  rw [← hmode]
  unfold Work.setUser
  rw [if_neg h]
  rfl

theorem tableOk_edged {w : Work} (h : w.st.TableOk) (u : UserPt) (v edge : Bool) : (w.edged u v edge).st.TableOk := by
  unfold Work.edged
  split
  · split
    · exact tableOk_raiseUser h _ _ _
    · exact tableOk_clearUser h _
  · exact h

theorem tableOk_setUser {w : Work} (h : w.st.TableOk) (u : UserPt) (v edge : Bool) : (w.setUser u v edge).st.TableOk := by
  by_cases hv : w.st.active (UserPt.pt u) = v
  · rw [setUser_same w u v edge hv]
    exact h
  · have hedged := tableOk_edged (tableOk_putCond h u v) u v edge
    rw [setUser_changes hv]
    split
    · exact tableOk_releaseAll hedged _
    · exact hedged

end Sys2Proof.Machine

/-! What a command can do to a state, said once: it moves what the laws of the state do not read, or takes the part into its reset
values, or ticks the countdowns, or runs one event and its end. Every law is then checked against these. -/

namespace Sys2Proof.Machine

/-- State t differs from state s in nothing that the laws of the table, the window, the chirp burst and the parents read; the
link state still says where the request stands. -/
structure Aside (s t : State) : Prop where
  mode : t.ctl.mode = s.ctl.mode
  pt : t.pt = s.pt
  nt : t.nt = s.nt
  shelf : t.shelf = s.shelf
  floor : t.snd.floor = s.snd.floor
  chirp : t.snd.chirp.isSome = true → s.snd.chirp.isSome = true
  top : t.pres.top = s.pres.top
  lineMode : t.pres.lineMode = s.pres.lineMode
  link : s.LinkOk → t.LinkOk

theorem Aside.refl (s : State) : Aside s s := ⟨rfl, rfl, rfl, rfl, rfl, id, rfl, rfl, id⟩

/-- A change of the Link alone. -/
theorem aside_withLink {s : State} {k : Link} (h : s.LinkOk → (s.withLink k).LinkOk) : Aside s (s.withLink k) :=
  ⟨rfl, rfl, rfl, rfl, rfl, id, rfl, rfl, h⟩

/-- The Link's own law reads the state, the two slots and the CSN fields alone. -/
structure Link.SameCourse (k k' : Link) : Prop where
  state : k'.state = k.state
  taken : k'.taken = k.taken
  slot : k'.slot = k.slot
  trans : k'.trans = k.trans
  muted : k'.muted = k.muted
  csnLow : k'.csnLow = k.csnLow

theorem Link.SameCourse.refl (k : Link) : k.SameCourse k := ⟨rfl, rfl, rfl, rfl, rfl, rfl⟩

theorem Link.SameCourse.trans' {k k' k'' : Link} (h : k.SameCourse k') (g : k'.SameCourse k'') : k.SameCourse k'' :=
  ⟨g.state.trans h.state, g.taken.trans h.taken, g.slot.trans h.slot, g.trans.trans h.trans, g.muted.trans h.muted,
    g.csnLow.trans h.csnLow⟩

theorem linkOk_of_sameCourse {s t : State} (h : s.link.SameCourse t.link) (hs : s.LinkOk) : t.LinkOk := by
  obtain ⟨h1, h2, h3, h4⟩ := hs
  refine ⟨?_, ?_, ?_, ?_⟩
  · rw [h.state, h.taken]; exact h1
  · rw [h.state, h.slot]; exact h2
  · rw [h.trans, h.state, h.slot]; exact h3
  · rw [h.muted, h.csnLow, h.trans]; exact h4

theorem TableStep.sameCourse {a b : State} (h : TableStep a b) : a.link.SameCourse b.link := by
  rw [h.link]
  exact ⟨rfl, rfl, rfl, rfl, rfl, rfl⟩

/-- The events of the part, each as the work that its command begins with, under the checks that the command makes. -/
inductive EventOf (s : State) : Work → Prop
  | aside (v : State) (compose : Bool) (h : Aside s v) : EventOf s { s.work with st := v, compose := compose }
  | writePoint (u : UserPt) (r : PointRec) (hm : s.ctl.mode = .config) : EventOf s (s.work.onState fun v => v.putPoint u r)
  | rewritePoint (u : UserPt) (r : PointRec) (hm : s.ctl.mode = .run) (hlive : s.pointIsLive u = false)
      (hparents : s.breaksParents u r.parent = false) : EventOf s (s.work.rewritePoint u r)
  | writeGroup (a : GroupWrite) : EventOf s (s.work.writeGroup a)
  | writeLine (a : LineWrite) (hm : s.ctl.mode = .config) : EventOf s (s.work.writeLine a)
  | writePanel (a : PanelSettings) (h : s.ctl.mode = .run → s.pres.lineMode = a.lineMode) : EventOf s (s.work.writePanel a)
  | hostRaise (u : UserPt) (f : NoticeField) (hm : s.ctl.mode = .run) (hgroup : s.groupEnabled u = true)
      (hroom : s.notice? (UserPt.pt u) = none → s.tableFull = false) : EventOf s (s.work.hostRaise u f)
  | clear (u : UserPt) (hm : s.ctl.mode = .run) : EventOf s (s.work.setUser u false true)
  | ackAll (scope : List Pt) (hm : s.ctl.mode = .run) : EventOf s (s.work.ackAll scope)
  | resetAll (scope : List Pt) (hm : s.ctl.mode = .run) : EventOf s (s.work.resetAll scope)
  | silence (hm : s.ctl.mode = .run) : EventOf s s.work.silenceAll
  | retire (p : Pt) (n : Notice) (hm : s.ctl.mode = .run) (hn : s.notice? p = some n) : EventOf s (s.work.retire n)
  | shelve (u : UserPt) (minutes : Nat) (hm : s.ctl.mode = .run) (hlo : 1 ≤ minutes) (hhi : minutes ≤ 240)
      (hroom : s.shelved (UserPt.pt u) = true ∨ s.shelf.length < Config.shelfEntries) :
      EventOf s (s.work.onState fun v => v.shelveFor u (minutes * 60))
  | unshelve (u : UserPt) (hm : s.ctl.mode = .run) : EventOf s (s.work.endShelving u)
  | start (hm : s.ctl.mode = .config) (h : s.lowestOffender = none) : EventOf s s.work.start
  | stop (hm : s.ctl.mode = .run) : EventOf s s.work.stop
  | supervisionExpiry : EventOf s s.work.supervisionExpiry
  | qualified (l : LineNo) : EventOf s (s.work.qualified l)
  | releaseLine (l : LineNo) : EventOf s (s.work.releaseLine l)
  | shelfExpiry (u : UserPt) : EventOf s (s.work.shelfExpiry u)
  | realert (p : Pt) (n : Notice) (hn : s.notice? p = some n) : EventOf s (s.work.realertExpiry n)
  | ackPress (hm : s.ctl.mode = .run) : EventOf s s.work.ackPress
  | silencePress (hm : s.ctl.mode = .run) : EventOf s s.work.silencePress
  | resetPress (hm : s.ctl.mode = .run) : EventOf s s.work.resetPress
  | scroll (up : Bool) (hm : s.ctl.mode = .run) : EventOf s (s.work.onState fun v => v.scrollStep up)
  | scrollHome : EventOf s (s.work.onState State.scrollHome)

/-- The state after a seconds tick. -/
def State.ticked (s : State) : State :=
  { s with
    nt := s.nt.tick
    shelf := tickShelf s.shelf
    lq := s.lq.tick
    link := { s.link with supTimer := s.link.supTimer.map Countdown.tick }
    pres := { s.pres with scrollTimer := s.pres.scrollTimer.map Countdown.tick } }

/-- What a command leaves of a state. -/
inductive StepTo (s : State) : State → Prop
  | aside (t : State) (h : Aside s t) : StepTo s t
  | ticked : StepTo s s.ticked
  | cleared (s0 : State) (c : Control) (h : c.mode = .config)
      (hl : s.LinkOk → s0.link.muted = true → s0.link.csnLow = true) : StepTo s (s0.cleared.withCtl c)
  | event (s0 : State) (w : Work) (t : State) (h0 : Aside s s0) (hw : EventOf s0 w) (ht : Aside (settle s0 w) t) : StepTo s t
  | transaction (k : Link) (j : Judgement) (hk : s.LinkOk → (s.withLink k).LinkOk)
      (hj : ∀ x, j.request? = some x → k.state ≠ .working ∧ k.slot = none) (htrans : k.trans = none) :
      StepTo s (settle (s.withLink k) ((s.withLink k).work.transaction j))

/-- A verdict that answers, or accepts one of the events. -/
def Verdict.Lawful (s : State) : Verdict → Prop
  | .answer _ _ => True
  | .act _ w => EventOf s w

theorem aside_recordRun (s : State) (r : Ran) : Aside s (s.recordRun r) :=
  aside_withLink (linkOk_of_sameCourse (t := s.recordRun r) ⟨rfl, rfl, rfl, rfl, rfl, rfl⟩)

/-- R165, R180: what the run of a request leaves. -/
theorem stepTo_request (s : State) (kind : Byte) (pl : List Byte) {v : Verdict} (h : v.Lawful s) :
    StepTo s (s.request kind pl v) := by
  cases hs : s.inService with
  | false => rw [request_out s kind pl v hs]; exact .aside s (.refl s)
  | true =>
    cases v with
    | answer r reply => rw [request_answer s kind pl r reply hs]; exact .aside _ (aside_recordRun s _)
    | act r w => rw [request_act s kind pl r w hs]; exact .event s w _ (.refl s) h (aside_recordRun _ _)

theorem Verdict.lawful_refuse (s : State) (r : Result) : (Verdict.refuse r).Lawful s := trivial

theorem Verdict.Lawful.lengthThen {s : State} {v : Verdict} (b : Bool) (h : v.Lawful s) : (lengthThen b v).Lawful s := by
  cases b
  · exact lawful_refuse s _
  · exact h

theorem Verdict.Lawful.inMode {s : State} {v : Verdict} (m : Mode) (h : s.ctl.mode = m → v.Lawful s) : (inMode s m v).Lawful s := by
  unfold Machine.inMode
  split
  · next hm => exact h hm
  · exact lawful_refuse s _

theorem Verdict.Lawful.withArgs {s : State} {α : Type} {a : Option α} {v : α → Verdict} (h : ∀ x, a = some x → (v x).Lawful s) :
    (withArgs a v).Lawful s := by
  cases a with
  | none => exact lawful_refuse s _
  | some x => exact h x rfl

/-! ## The requests -/

theorem lawful_plainReport (s : State) (pl reply : List Byte) : (plainReport pl reply).Lawful s :=
  Verdict.Lawful.lengthThen (v := .answer .ok reply) _ trivial

theorem lawful_writePoint (s : State) (pl : List Byte) : (writePointVerdict s pl).Lawful s := by
  refine Verdict.Lawful.lengthThen _ (.withArgs fun a _ => ?_)
  split
  · next hm => exact EventOf.writePoint a.1 a.2 hm
  · next hm =>
    split
    · trivial
    · next hlive =>
      split
      · trivial
      · next hparents => exact EventOf.rewritePoint a.1 a.2 hm (by simpa using hlive) (by simpa using hparents)

theorem lawful_writeGroup (s : State) (pl : List Byte) : (writeGroupVerdict s pl).Lawful s :=
  Verdict.Lawful.lengthThen _ (.withArgs fun a _ => EventOf.writeGroup a)

theorem lawful_writeLine (s : State) (pl : List Byte) : (writeLineVerdict s pl).Lawful s := by
  refine Verdict.Lawful.lengthThen _ (.inMode _ fun hm => .withArgs fun a _ => ?_)
  split
  · trivial
  · exact EventOf.writeLine a hm

theorem lawful_writePanel (s : State) (pl : List Byte) : (writePanelVerdict s pl).Lawful s := by
  refine Verdict.Lawful.lengthThen _ (.withArgs fun a _ => ?_)
  split
  · trivial
  · next h => exact EventOf.writePanel a fun hm => by_contra fun hne => h ⟨hm, hne⟩

/-- An accepted request that moves only what stands aside. -/
theorem lawful_aside {s : State} (r : Result) (f : State → State) (h : Aside s (f s)) :
    (Verdict.act r (s.work.onState f)).Lawful s := EventOf.aside (f s) false h

theorem lawful_raise (s : State) (pl : List Byte) : (raiseVerdict s pl).Lawful s := by
  refine Verdict.Lawful.lengthThen _ (.inMode _ fun hm => .withArgs fun a _ => ?_)
  split
  · trivial
  · split
    · trivial
    · next hgroup =>
      split
      · trivial
      · next hroom =>
        refine EventOf.hostRaise a.1 a.2 hm (by simpa using hgroup) fun hn => ?_
        rw [hn] at hroom
        simpa using hroom

theorem lawful_clear (s : State) (pl : List Byte) : (clearVerdict s pl).Lawful s := by
  refine Verdict.Lawful.lengthThen _ (.inMode _ fun hm => .withArgs fun u _ => ?_)
  split
  · trivial
  · exact EventOf.clear u hm

theorem lawful_acknowledge (s : State) (pl : List Byte) : (acknowledgeVerdict s pl).Lawful s := by
  refine Verdict.Lawful.lengthThen _ (.inMode _ fun hm => .withArgs fun c _ => ?_)
  split
  · trivial
  · exact EventOf.ackAll _ hm

theorem lawful_reset (s : State) (pl : List Byte) : (resetVerdict s pl).Lawful s := by
  refine Verdict.Lawful.lengthThen _ (.inMode _ fun hm => .withArgs fun c _ => ?_)
  split
  · trivial
  · exact EventOf.resetAll _ hm

theorem lawful_retire (s : State) (pl : List Byte) : (retireVerdict s pl).Lawful s := by
  refine Verdict.Lawful.lengthThen _ (.inMode _ fun hm => .withArgs fun p _ => ?_)
  split
  · trivial
  · next n hn => exact EventOf.retire p n hm hn

/-- R72: the minutes that SHELVE takes. -/
theorem parseShelve_range {pl : List Byte} {p : Pt} {minutes : Nat} (h : parseShelve pl = some (p, minutes)) :
    1 ≤ minutes ∧ minutes ≤ 240 := by
  unfold parseShelve at h
  split at h
  · next b m =>
    simp only [parseRange, Option.pure_def, Option.bind_eq_bind, Option.bind_eq_some_iff, Option.some.injEq, Prod.mk.injEq] at h
    obtain ⟨q, -, k, hk, -, rfl⟩ := h
    split at hk
    · next hr => cases hk; exact hr
    · cases hk
  · cases h

theorem lawful_shelve (s : State) (pl : List Byte) : (shelveVerdict s pl).Lawful s := by
  refine Verdict.Lawful.lengthThen _ (.inMode _ fun hm => .withArgs fun a ha => ?_)
  obtain ⟨hlo, hhi⟩ := parseShelve_range ha
  unfold shelvePermitted
  split
  · trivial
  · next u hu =>
    split
    · trivial
    · split
      · trivial
      · next hroom =>
        rw [(userOf_eq_some_iff _ _).1 hu] at hroom
        refine EventOf.shelve u a.2 hm hlo hhi ?_
        by_cases hsh : s.shelved (UserPt.pt u) = true
        · exact .inl hsh
        · simp only [Bool.not_eq_true] at hsh
          simp only [hsh, Bool.not_false, Bool.true_and, decide_eq_true_eq, not_le] at hroom
          exact .inr hroom

theorem lawful_unshelve (s : State) (pl : List Byte) : (unshelveVerdict s pl).Lawful s := by
  refine Verdict.Lawful.lengthThen _ (.inMode _ fun hm => .withArgs fun p _ => ?_)
  split
  · trivial
  · next e _ => exact EventOf.unshelve e.point hm

theorem lawful_lookup (s : State) (pl : List Byte) : (lookupVerdict s pl).Lawful s := by
  refine Verdict.Lawful.lengthThen _ (.withArgs fun p _ => ?_)
  split <;> trivial

theorem lawful_start (s : State) (pl : List Byte) : (startVerdict s pl).Lawful s := by
  refine Verdict.Lawful.lengthThen _ (.inMode _ fun hm => ?_)
  split
  · trivial
  · next h => exact EventOf.start hm h

/-- A report of what one byte names. -/
theorem lawful_report (s : State) {α : Type} (b : Bool) (a : Option α) (report : α → List Byte) :
    (lengthThen b (withArgs a fun x => .answer .ok (report x))).Lawful s :=
  Verdict.Lawful.lengthThen _ (.withArgs fun _ _ => trivial)

/-- A change of the Link that its law does not read. -/
theorem aside_sameCourse {s : State} {k : Link} (h : s.link.SameCourse k) : Aside s (s.withLink k) :=
  aside_withLink (linkOk_of_sameCourse (t := s.withLink k) h)

theorem aside_clearFlags (s : State) (m : BitVec 8) : Aside s (s.withLink (s.link.clearFlags m)) :=
  aside_sameCourse ⟨rfl, rfl, rfl, rfl, rfl, rfl⟩

theorem aside_enables (s : State) (m : BitVec 8) : Aside s (s.withLink { s.link with enables := m }) :=
  aside_sameCourse ⟨rfl, rfl, rfl, rfl, rfl, rfl⟩

theorem aside_withKp (s : State) (b : Keypad) : Aside s (s.withKp b) := ⟨rfl, rfl, rfl, rfl, rfl, id, rfl, rfl, id⟩

theorem aside_withLq (s : State) (b : LineQualifier) : Aside s (s.withLq b) := ⟨rfl, rfl, rfl, rfl, rfl, id, rfl, rfl, id⟩

theorem aside_withCtl (s : State) {c : Control} (h : c.mode = s.ctl.mode) : Aside s (s.withCtl c) :=
  ⟨h, rfl, rfl, rfl, rfl, id, rfl, rfl, id⟩

theorem aside_withPres (s : State) {b : Presentation} (htop : b.top = s.pres.top) (hmode : b.lineMode = s.pres.lineMode) :
    Aside s (s.withPres b) := ⟨rfl, rfl, rfl, rfl, rfl, id, htop, hmode, id⟩

theorem aside_withSnd (s : State) {b : Sounder} (hfloor : b.floor = s.snd.floor)
    (hchirp : b.chirp.isSome = true → s.snd.chirp.isSome = true) : Aside s (s.withSnd b) :=
  ⟨rfl, rfl, rfl, rfl, hfloor, hchirp, rfl, rfl, id⟩

theorem Presentation.swapped_keeps (b : Presentation) : b.swapped.top = b.top ∧ b.swapped.lineMode = b.lineMode := by
  unfold Presentation.swapped
  split <;> exact ⟨rfl, rfl⟩

theorem aside_startLampTest (s : State) : Aside s s.startLampTest := by
  unfold State.startLampTest
  split
  · exact .refl s
  · exact aside_withKp s _

/-- What every request leaves, in one list by their rows. -/
theorem stepTo_of_request {c : Instr} {pl : List Byte} (hc : c.payload? = some pl) {s t : State} (h : exec c s = .next t) :
    StepTo s t := by
  have run (kind : Byte) (pl : List Byte) {v : Verdict} (hv : v.Lawful s) (ht : (Host.Outcome.next (s.request kind pl v) : Host.Outcome State Fault Refusal) = .next t) :
      StepTo s t := by
    injection ht with ht
    rw [← ht]
    exact stepTo_request s kind pl hv
  cases c
  case identify p | status p | readEvents p => exact run _ p (lawful_plainReport s p _) h
  case writePoint p => exact run _ p (lawful_writePoint s p) h
  case readPoint p => exact run _ p (lawful_report s _ _ _) h
  case writeGroup p => exact run _ p (lawful_writeGroup s p) h
  case readGroup p => exact run _ p (lawful_report s _ _ _) h
  case writeLine p => exact run _ p (lawful_writeLine s p) h
  case readLine p => exact run _ p (lawful_report s _ _ _) h
  case writePanel p => exact run _ p (lawful_writePanel s p) h
  case readPanel p => exact run _ p (.lengthThen (v := .answer .ok s.panelReport) _ trivial) h
  case writeOutput p =>
    exact run _ p (.lengthThen _ (.withArgs fun a _ => lawful_aside .ok _ ⟨rfl, rfl, rfl, rfl, rfl, id, rfl, rfl, id⟩)) h
  case setOutput p =>
    exact run _ p (.lengthThen _ (.withArgs fun a _ => lawful_aside .ok _ ⟨rfl, rfl, rfl, rfl, rfl, id, rfl, rfl, id⟩)) h
  case keyLock p => exact run _ p (.lengthThen _ (.withArgs fun a _ => lawful_aside .ok _ (aside_withKp s _))) h
  case setMessage p =>
    refine run _ p (.lengthThen _ (.withArgs fun a _ => ?_)) h
    exact EventOf.aside (s.withPres { s.pres with message := a }) true ⟨rfl, rfl, rfl, rfl, rfl, id, rfl, rfl, id⟩
  case lampTest p => exact run _ p (.lengthThen _ (lawful_aside .ok _ (aside_startLampTest s))) h
  case raise p => exact run _ p (lawful_raise s p) h
  case clear p => exact run _ p (lawful_clear s p) h
  case acknowledge p => exact run _ p (lawful_acknowledge s p) h
  case reset p => exact run _ p (lawful_reset s p) h
  case silence p => exact run _ p (.lengthThen _ (.inMode (v := .act .ok s.work.silenceAll) _ fun hm => EventOf.silence hm)) h
  case retire p => exact run _ p (lawful_retire s p) h
  case shelve p => exact run _ p (lawful_shelve s p) h
  case unshelve p => exact run _ p (lawful_unshelve s p) h
  case lookup p => exact run _ p (lawful_lookup s p) h
  case list p => exact run _ p (lawful_report s _ _ _) h
  case pending p => exact run _ p (lawful_report s _ _ _) h
  case shelf p => exact run _ p (lawful_report s _ _ _) h
  case clearEvents p =>
    exact run _ p (.lengthThen _ (.withArgs fun a _ => lawful_aside .ok _ (aside_clearFlags s a))) h
  case eventEnable p =>
    exact run _ p (.lengthThen _ (.withArgs fun a _ => lawful_aside .ok _ (aside_enables s a))) h
  case start p => exact run _ p (lawful_start s p) h
  case stop p => exact run _ p (.lengthThen _ (.inMode (v := .act .ok s.work.stop) _ fun hm => EventOf.stop hm)) h
  case unknownKind k p =>
    simp only [exec, execUnknownKind] at h
    split at h
    · exact run _ p (Verdict.lawful_refuse s _) h
    · cases h; exact .aside s (.refl s)
  all_goals cases hc

/-! ## The events that are no requests -/

/-- An event on the state with something aside moved before it. -/
theorem stepTo_event {s s0 : State} {w : Work} (h0 : Aside s s0) (hw : EventOf s0 w) : StepTo s (settle s0 w) :=
  .event s0 w _ h0 hw (.refl _)

/-- R109: a press that is taken. -/
theorem stepTo_takePress {s s0 : State} (h0 : Aside s s0) (k : KeyNo) : StepTo s (s0.takePress k) := by
  cases hp : s0.pressActs k with
  | false => rw [takePress_ignored hp]; exact .aside _ h0
  | true =>
    rw [takePress_acts hp]
    obtain ⟨-, -, hmode⟩ := (pressActs_iff s0 k).1 hp
    by_cases hk : k = 3
    · subst hk
      exact stepTo_event h0 (.aside _ false (aside_startLampTest s0))
    · have hm := hmode.resolve_right hk
      refine stepTo_event h0 ?_
      match k with
      | 0 => exact .ackPress hm
      | 1 => exact .silencePress hm
      | 2 => exact .resetPress hm
      | 3 => exact absurd rfl hk
      | 4 => exact .scroll true hm
      | 5 => exact .scroll false hm

/-- R163, R166: consumption keeps the Link's law. -/
theorem linkOk_risen {s : State} {tr : Transaction} (htr : s.link.trans = some tr) (n : Nat) (h : s.LinkOk) :
    (s.withLink (s.link.risen (tr.consumes n))).LinkOk := by
  obtain ⟨hworking, hready, hcarried, -⟩ := h
  cases hc : tr.consumes n with
  | false => exact ⟨hworking, hready, fun t ht => (nomatch ht), fun hm => (nomatch hm)⟩
  | true =>
    have hreply : tr.reply.isSome = true := by
      unfold Transaction.consumes at hc
      cases hr : tr.reply with
      | none => rw [hr] at hc; cases hc
      | some f => rfl
    have hstate := (hcarried tr htr hreply).1
    have htaken : s.link.taken = none := by
      rw [← Option.not_isSome_iff_eq_none, ← hworking, hstate]
      decide
    refine ⟨?_, ?_, fun t ht => (nomatch ht), fun hm => (nomatch hm)⟩
    · show LinkState.idle = .working ↔ s.link.taken.isSome = true
      rw [htaken]
      decide
    · exact iff_of_false (by show LinkState.idle ≠ _; decide) (by show ¬(none : Option ReplyFrame).isSome = true; decide)

/-- R163: a request is taken only in IDLE with the reply slot empty. -/
theorem judge_taken {k : Link} {mosi : List Byte} {x : Taken} (h : (k.judge mosi).request? = some x) :
    k.state ≠ .working ∧ k.slot = none := by
  unfold Link.judge at h
  dsimp only at h
  repeat' split at h
  all_goals try (cases h)
  next hw hs => exact ⟨hw, by simpa using hs⟩

theorem stepTo_transactionEnd {s t : State} {mosi stray : List Bool} (h : exec (.transactionEnd mosi stray) s = .next t) :
    StepTo s t := by
  cases hcsn : s.link.csnLow with
  | false =>
    simp only [exec, execTransactionEnd, hcsn] at h
    cases h
    exact .aside s (.refl s)
  | true =>
    by_cases hout : wholeBytes mosi = [] ∨ s.link.trans = none ∨ s.inService = false
    · rw [exec_transactionEnd_unjudged hcsn hout] at h
      cases h
      refine .aside _ (aside_withLink ?_)
      rintro ⟨hworking, hready, -, -⟩
      exact ⟨hworking, hready, fun t ht => (nomatch ht), fun hm => (nomatch hm)⟩
    · push Not at hout
      obtain ⟨hb, htr, hs⟩ := hout
      obtain ⟨tr, htr⟩ := Option.ne_none_iff_exists'.1 htr
      rw [exec_transactionEnd_judged (by simpa using hs) hcsn htr hb] at h
      cases h
      unfold State.endTransaction
      split
      · refine .cleared (s.withLink (s.link.risen (tr.consumes (wholeBytes mosi).length))) _ rfl fun _ hm => ?_
        unfold Link.risen Link.consume at hm
        split at hm <;> cases hm
      · refine .transaction _ _ (linkOk_risen htr _) (fun x hx => ?_) (by unfold Link.risen Link.consume; split <;> rfl)
        obtain ⟨hw, hs⟩ := judge_taken hx
        revert hw hs
        cases tr.consumes (wholeBytes mosi).length
        · exact fun hw hs => ⟨hw, hs⟩
        · exact fun hw hs => ⟨hw, hs⟩

theorem stepTo_csnFall {s t : State} (h : exec .csnFall s = .next t) : StepTo s t := by
  simp only [exec, execCsnFall] at h
  split at h
  · cases h; exact .aside s (.refl s)
  · cases h
    refine .aside _ (aside_withLink ?_)
    rintro ⟨hworking, hready, -, -⟩
    refine ⟨hworking, hready, fun t ht hr => ?_, fun hm => ?_⟩
    · change (if s.inService then some _ else none) = some t at ht
      cases hs : s.inService with
      | false => rw [hs] at ht; cases ht
      | true =>
        rw [hs] at ht
        cases ht
        change (if s.link.state = .replyReady then s.link.slot else none).isSome = true at hr
        show s.link.state = .replyReady ∧ (if s.link.state = .replyReady then s.link.slot else none) = s.link.slot
        by_cases hst : s.link.state = .replyReady
        · exact ⟨hst, if_pos hst⟩
        · rw [if_neg hst] at hr; cases hr
    · refine ⟨rfl, ?_⟩
      show (if s.inService then some _ else none) = none
      cases hs : s.inService with
      | false => rfl
      | true =>
        have := (not_inReset_of_inService hs).2
        change s.ctl.softHold = true at hm
        rw [this] at hm
        cases hm

theorem stepTo_replyPlacement {s t : State} (h : exec .replyPlacement s = .next t) : StepTo s t := by
  simp only [exec, execReplyPlacement] at h
  split at h
  · next f hdue =>
    split at h
    · cases h
      refine .aside _ (aside_withLink ?_)
      rintro ⟨hworking, -, hcarried, hmuted⟩
      have hstate : s.link.state = .working := by
        unfold Link.replyDue at hdue
        split at hdue
        · assumption
        · cases hdue
      refine ⟨iff_of_false (by show LinkState.replyReady ≠ _; decide) (by show ¬(none : Option Taken).isSome = true; decide),
        iff_of_true rfl rfl, fun t ht hr => ?_, hmuted⟩
      have := (hcarried t ht hr).1
      rw [hstate] at this
      cases this
    · cases h; exact .aside s (.refl s)
  · cases h; exact .aside s (.refl s)

/-- What every command leaves. -/
theorem exec_stepTo {c : Instr} {s t : State} (h : exec c s = .next t) : StepTo s t := by
  have same (ht : (Host.Outcome.next s : Host.Outcome State Fault Refusal) = .next t) : StepTo s t := by cases ht; exact .aside s (.refl s)
  have still {v : State} (hv : Aside s v) (ht : (Host.Outcome.next v : Host.Outcome State Fault Refusal) = .next t) : StepTo s t := by cases ht; exact .aside _ hv
  have event {w : Work} (hw : EventOf s w) (ht : (Host.Outcome.next (settle s w) : Host.Outcome State Fault Refusal) = .next t) : StepTo s t := by
    cases ht; exact stepTo_event (.refl s) hw
  cases c
  case csnFall => exact stepTo_csnFall h
  case transactionEnd => exact stepTo_transactionEnd h
  case replyPlacement => exact stepTo_replyPlacement h
  case supervisionExpiry =>
    simp only [exec, execSupervisionExpiry] at h
    split at h
    · exact event .supervisionExpiry h
    · exact same h
  case lineRawChange l pin =>
    simp only [exec, execLineRawChange] at h
    split at h
    · exact still (aside_withLq s _) h
    · exact same h
  case lineQualifyExpiry l =>
    simp only [exec, execLineQualifyExpiry] at h
    split at h
    · exact event (.qualified l) h
    · exact same h
  case chatterWindowExpiry l =>
    simp only [exec, execChatterWindowExpiry] at h
    split at h
    · exact still (aside_withLq s _) h
    · exact same h
  case chatterRelease l =>
    simp only [exec, execChatterRelease] at h
    split at h
    · exact event (.releaseLine l) h
    · exact same h
  case shelfEntryExpiry u =>
    simp only [exec, execShelfEntryExpiry] at h
    split at h
    · exact event (.shelfExpiry u) h
    · exact same h
  case realertExpiry p =>
    simp only [exec, execRealertExpiry] at h
    split at h
    · next n hn =>
      split at h
      · exact event (.realert p n hn) h
      · exact same h
    · exact same h
  case keyRawChange k pin =>
    simp only [exec, execKeyRawChange] at h
    split at h
    · exact still (aside_withKp s _) h
    · exact same h
  case keyDebounceExpiry k =>
    simp only [exec, execKeyDebounceExpiry] at h
    split at h
    · split at h
      · cases h; exact stepTo_takePress (aside_withKp s _) k
      · exact still (aside_withKp s _) h
      · exact same h
      · exact same h
    · exact same h
  case keyRepeatExpiry k =>
    simp only [exec, execKeyRepeatExpiry] at h
    split at h
    · split at h
      · cases h; exact stepTo_takePress (aside_withKp s _) k
      · exact still (aside_withKp s _) h
      · exact same h
      · exact same h
    · exact same h
  case lampTestExpiry =>
    simp only [exec, execLampTestExpiry] at h
    split at h
    · exact still (aside_withKp s _) h
    · exact same h
  case stepBoundary =>
    simp only [exec, execStepBoundary] at h
    split at h
    · have hc : s.sounderAtBoundary.chirp.isSome = true → s.snd.chirp.isSome = true := by
        show (s.snd.chirp.map _).isSome = true → _
        rw [Option.isSome_map]
        exact id
      cases h
      exact .aside _ ⟨rfl, rfl, rfl, rfl, rfl, hc, rfl, rfl, id⟩
    · exact same h
  case refreshLatch =>
    simp only [exec, execRefreshLatch] at h
    split at h
    · split at h
      · cases h; exact .aside _ (aside_withPres s rfl rfl)
      · exact same h
    · exact same h
  case chirpBurstEnd =>
    simp only [exec, execChirpBurstEnd] at h
    split at h
    · cases h; exact .aside _ (aside_withSnd s rfl fun hc => nomatch hc)
    · exact same h
  case secondsTick =>
    simp only [exec, execSecondsTick] at h
    split at h
    · cases h; exact .ticked
    · exact same h
  case scrollHoldExpiry =>
    simp only [exec, execScrollHoldExpiry] at h
    split at h
    · exact event .scrollHome h
    · exact same h
  case compositionComplete =>
    simp only [exec, execCompositionComplete] at h
    split at h
    · split at h
      · refine still ?_ h
        unfold State.completed
        split <;> exact ⟨rfl, rfl, rfl, rfl, rfl, id, rfl, rfl, id⟩
      · exact same h
    · exact same h
    · exact same h
  case frameBoundary =>
    simp only [exec, execFrameBoundary] at h
    split at h
    · cases h; exact .aside _ (aside_withPres s s.pres.swapped_keeps.1 s.pres.swapped_keeps.2)
    · exact same h
  case powerOn | supplyFall | resetnFall => cases h; exact .cleared s _ rfl fun hl hm => (hl.2.2.2 hm).1
  case resetnRise =>
    simp only [exec, execResetnRise] at h
    split at h
    · cases h; exact .aside _ (aside_withCtl s rfl)
    · exact same h
  case resetExit =>
    simp only [exec, execResetExit] at h
    split at h
    · cases h; exact .cleared s _ rfl fun hl hm => (hl.2.2.2 hm).1
    · exact same h
  case oscillatorStop =>
    simp only [exec, execOscillatorStop] at h
    split at h
    · exact same h
    · cases h; exact .aside _ (aside_withCtl s rfl)
  case oscillatorRestart => cases h; exact .aside _ (aside_withCtl s rfl)
  all_goals exact stepTo_of_request rfl h

end Sys2Proof.Machine

/-! The table's law in every step (R24, R57, R60, R61, R63): the events that P9's operations make up. -/

namespace Sys2Proof.Machine

theorem tableOk_retireAt {w : Work} (h : w.st.TableOk) (p : Pt) : (w.retireAt p).st.TableOk := by
  unfold Work.retireAt
  split
  · next n hn => exact tableOk_retire h (notice?_some hn).1
  · exact h

theorem tableOk_raiseEach {w : Work} (h : w.st.TableOk) (kind : RaiseKind) (us : List UserPt) :
    (Work.raiseEach kind w us).st.TableOk :=
  foldl_keeps (P := fun w => w.st.TableOk) (fun _ u h => tableOk_raiseUser h kind u .none) us h

/-- R5: conditions of user points that are cleared together leave 129's. -/
theorem tableOk_clearGroupLinks {s : State} (h : s.TableOk) (g : GroupNo) : (s.clearGroupLinks g).TableOk :=
  h.congr rfl rfl (get_vmap _ _ _)

theorem tableOk_setMarker {w : Work} (h : w.st.TableOk) (g : GroupNo) (m : Option UserPt) : (w.setMarker g m).st.TableOk :=
  h.congr rfl rfl rfl

theorem tableOk_disableGroup {w : Work} (h : w.st.TableOk) (g : GroupNo) : (w.disableGroup g).st.TableOk := by
  have hretired := foldl_keeps (P := fun w => w.st.TableOk) (fun _ p h => tableOk_retireAt h p)
    ((w.withdraw fun u => (w.st.pointRec u).group = g).st.groupNotices g) (tableOk_withdraw h fun u => (w.st.pointRec u).group = g)
  exact tableOk_setMarker (tableOk_releaseAll (w := Work.onState _ fun s => s.clearGroupLinks g)
    (tableOk_clearGroupLinks hretired g) _) g none

theorem tableOk_changeLevel {w : Work} (h : w.st.TableOk) (g : GroupNo) (level : Nat) : (w.changeLevel g level).st.TableOk :=
  foldl_keeps (P := fun w => w.st.TableOk) (f := Work.setLevel level) (fun _ p h => tableOk_change h p fun _ => rfl) _ h

theorem tableOk_writeGroup {w : Work} (h : w.st.TableOk) (a : GroupWrite) : (w.writeGroup a).st.TableOk := by
  have hput : (w.onState fun s => s.putGroup a).st.TableOk := h.congr rfl rfl rfl
  unfold Work.writeGroup
  dsimp only
  split
  · exact hput
  · exact tableOk_disableGroup hput _
  · exact tableOk_raiseEach hput _ _
  · split
    · exact hput
    · exact tableOk_changeLevel hput _ _
  · exact hput

theorem tableOk_start {w : Work} (h : w.st.TableOk) : w.start.st.TableOk :=
  (tableOk_raiseEach (w := w.onState fun s => s.withCtl { s.ctl with mode := .run }) (h.congr rfl rfl rfl) .startUp _).congr rfl rfl rfl

/-- R205, step 4: each quiet removal takes its point out of the table, and lets none in. -/
theorem points_removeQuietly (w : Work) (p q : Pt) : q ∈ (w.removeQuietly p).st.nt.points ↔ q ∈ w.st.nt.points ∧ q ≠ p := by
  unfold Work.removeQuietly
  split
  · next n hn =>
    rw [Work.remove_eq]
    rw [show p = n.point from (notice?_some hn).2.symm]
    exact NoticeTable.mem_points_removed _ _ _
  · next hnone =>
    have hp := (State.notice?_eq_none_iff _ _).1 hnone
    constructor
    · intro hq
      exact ⟨hq, fun he => hp (he ▸ hq)⟩
    · exact fun h => h.1

theorem pendSet_removeQuietly (w : Work) (p : Pt) : (w.removeQuietly p).st.nt.pendSet = w.st.nt.pendSet := by
  unfold Work.removeQuietly
  split
  · rw [Work.remove_eq]; rfl
  · rfl

/-- R205: after them the table is empty. -/
theorem notices_removeAll (w : Work) : ((w.st.nt.notices.map (·.point)).foldl Work.removeQuietly w).st.nt.notices = [] := by
  have hall (l : List Pt) (w : Work) (q : Pt) :
      q ∈ (l.foldl Work.removeQuietly w).st.nt.points ↔ q ∈ w.st.nt.points ∧ q ∉ l := by
    induction l generalizing w with
    | nil => simp
    | cons p rest ih =>
      rw [List.foldl_cons, ih, points_removeQuietly]
      simp [and_assoc]
  have hnone (q : Pt) : q ∉ ((w.st.nt.notices.map (·.point)).foldl Work.removeQuietly w).st.nt.points := by
    rw [hall]
    exact fun h => h.2 h.1
  refine List.eq_nil_iff_forall_not_mem.2 fun n hn => hnone n.point (List.mem_map.2 ⟨n, hn, rfl⟩)

theorem pendSet_removeAll (l : List Pt) (w : Work) : (l.foldl Work.removeQuietly w).st.nt.pendSet = w.st.nt.pendSet :=
  foldl_keeps (P := fun x => x.st.nt.pendSet = w.st.nt.pendSet) (fun x p h => (pendSet_removeQuietly x p).trans h) l rfl

/-- R205: STOP leaves no notice, no pending point and no shelf entry. -/
theorem nt_stop (w : Work) : w.stop.st.nt.notices = [] ∧ w.stop.st.nt.pendSet = [] := by
  refine ⟨notices_removeAll (w.onState State.emptyQueues), ?_⟩
  exact pendSet_removeAll _ (w.onState State.emptyQueues)

/-- A table with no notice and no pending point, and 129 CLEAR. -/
theorem tableOk_of_empty {s : State} (hn : s.nt.notices = []) (hp : s.nt.pendSet = []) (ho : s.active panelOverflow = false) :
    s.TableOk := by
  refine ⟨by rw [hn]; exact .nil, by rw [hp]; exact .nil, ?_, ?_, fun h => absurd hp h, ?_⟩
  · rw [State.userCount, hn]; exact Nat.zero_le _
  · rw [hp]; exact fun u hu => nomatch hu
  · rw [ho, hp]
    exact iff_of_false (by decide) (by simp)

theorem active_clearSources (s : State) (p : Pt) :
    s.clearSources.active p = match userOf p with
      | some u => s.active p && !s.linkSourced u
      | none => false := get_vmap _ _ _

theorem tableOk_stop (w : Work) : w.stop.st.TableOk :=
  tableOk_of_empty (nt_stop w).1 (nt_stop w).2 (active_clearSources _ panelOverflow)

theorem tableOk_silenceAll {w : Work} (h : w.st.TableOk) : w.silenceAll.st.TableOk :=
  (foldl_keeps (P := fun w => w.st.TableOk) (f := Work.silenceAt) (fun _ p h => tableOk_change h p fun _ => rfl)
    w.st.soundingScope h).congr rfl rfl rfl

theorem tableOk_hostReturn {w : Work} (h : w.st.TableOk) : w.hostReturn.st.TableOk :=
  foldl_keeps (P := fun w => w.st.TableOk) (fun _ p h => tableOk_setStale h false p) _ (tableOk_setHostSilent h false)

theorem tableOk_restartSupervision {w : Work} (h : w.st.TableOk) : w.restartSupervision.st.TableOk := by
  unfold Work.restartSupervision
  split
  · exact h
  · exact h.congr rfl rfl rfl
  · exact (tableOk_hostReturn h).congr rfl rfl rfl

theorem tableOk_transaction {w : Work} (h : w.st.TableOk) (j : Judgement) : (w.transaction j).st.TableOk := by
  have hjudged : (w.onState fun s => s.withLink (s.link.judged j)).st.TableOk := h.congr rfl rfl rfl
  unfold Work.transaction
  dsimp only
  split
  · split
    · exact tableOk_restartSupervision (hjudged.congr rfl rfl rfl)
    · exact tableOk_restartSupervision hjudged
  · split
    · exact hjudged.congr rfl rfl rfl
    · exact hjudged

theorem tableOk_supervisionExpiry {w : Work} (h : w.st.TableOk) : w.supervisionExpiry.st.TableOk :=
  foldl_keeps (P := fun w => w.st.TableOk) (fun _ p h => tableOk_setStale h true p) _
    (tableOk_setHostSilent (w := w.onState fun s => s.withLink { s.link with sup := .expired, supTimer := none })
      (h.congr rfl rfl rfl) true)

theorem tableOk_moveLine {w : Work} (h : w.st.TableOk) (l : LineNo) (r : LineRec) : (w.moveLine l r).st.TableOk := by
  have hput : (w.onState fun s => s.putLine l r).st.TableOk := h.congr rfl rfl rfl
  unfold Work.moveLine
  dsimp only
  split
  · split
    · exact hput
    · exact tableOk_setUser hput _ _ _
  · exact hput

theorem tableOk_markChattering {w : Work} (h : w.st.TableOk) (bound : Option UserPt) (v : Bool) :
    (w.markChattering bound v).st.TableOk := by
  unfold Work.markChattering
  split
  · exact tableOk_setChattering h v _
  · exact h

theorem tableOk_qualified {w : Work} (h : w.st.TableOk) (l : LineNo) : (w.qualified l).st.TableOk := by
  unfold Work.qualified
  dsimp only
  split
  · split
    · exact (tableOk_moveLine (tableOk_markChattering h _ _) _ _).congr rfl rfl rfl
    · exact tableOk_moveLine h _ _
  · exact tableOk_moveLine h _ _
  · exact h
  · exact h

theorem tableOk_setBound {w : Work} (h : w.st.TableOk) (bound : Option UserPt) (v : Bool) : (w.setBound bound v).st.TableOk := by
  unfold Work.setBound
  split
  · exact tableOk_setUser h _ _ _
  · exact h

theorem tableOk_writeLine {w : Work} (h : w.st.TableOk) (a : LineWrite) : (w.writeLine a).st.TableOk := by
  have hput (r : LineRec) : (w.onState fun s => s.putLine a.line r).st.TableOk := h.congr rfl rfl rfl
  unfold Work.writeLine
  dsimp only
  split
  · exact tableOk_setBound (tableOk_setBound (hput _) _ _) _ _
  · split
    · exact tableOk_setBound (hput _) _ _
    · exact hput _

/-- R187: a countdown removed leaves the points. -/
theorem tableOk_putPanel {s : State} (h : s.TableOk) (a : PanelSettings) : (s.putPanel a).TableOk := by
  have hnt := putPanel_notices s a
  refine h.congr ?_ (by rw [hnt]) rfl
  rw [hnt]
  show List.map _ (if _ then _ else _) = _
  split
  · exact points_map (f := fun n : Notice => { n with realert := none }) (fun _ => rfl) _
  · rfl

theorem tableOk_rewritePoint {w : Work} (h : w.st.TableOk) (u : UserPt) (r : PointRec) : (w.rewritePoint u r).st.TableOk := by
  have hput : (w.onState fun s => s.putPoint u r).st.TableOk := h.congr rfl rfl rfl
  unfold Work.rewritePoint
  dsimp only
  split
  · exact tableOk_setUser hput _ _ _
  · exact hput

theorem tableOk_hostRaise {w : Work} (h : w.st.TableOk) (u : UserPt) (f : NoticeField) : (w.hostRaise u f).st.TableOk :=
  tableOk_raiseUser (w := w.putCond (UserPt.pt u) true) (tableOk_putCond h u true) .link u f

theorem tableOk_scrollHome {s : State} (h : s.TableOk) : s.scrollHome.TableOk := by
  unfold State.scrollHome
  dsimp only
  split <;> exact h.congr rfl rfl rfl

/-- What stands aside is none of what the table's law reads. -/
theorem Aside.tableOk {s t : State} (h : Aside s t) (hs : s.TableOk) : t.TableOk :=
  hs.congr (by rw [h.nt]) (by rw [h.nt]) (by rw [State.active, h.pt]; rfl)

theorem tableOk_event {s : State} {w : Work} (hw : EventOf s w) (h : s.TableOk) : w.st.TableOk := by
  cases hw with
  | aside v _ hv => exact hv.tableOk h
  | writePoint u r => exact h.congr rfl rfl rfl
  | rewritePoint u r => exact tableOk_rewritePoint (w := s.work) h u r
  | writeGroup a => exact tableOk_writeGroup (w := s.work) h a
  | writeLine a => exact tableOk_writeLine (w := s.work) h a
  | writePanel a => exact tableOk_putPanel h a
  | hostRaise u f => exact tableOk_hostRaise (w := s.work) h u f
  | clear u => exact tableOk_setUser (w := s.work) h u false true
  | ackAll scope => exact foldl_keeps (P := fun w => w.st.TableOk) (fun _ p h => tableOk_ack h p) scope h
  | resetAll scope => exact foldl_keeps (P := fun w => w.st.TableOk) (fun _ p h => tableOk_resetAt h p) scope h
  | silence => exact tableOk_silenceAll (w := s.work) h
  | retire p n _ hn => exact tableOk_retire (w := s.work) h (notice?_some hn).1
  | shelve u m => exact h.congr rfl rfl rfl
  | unshelve u => exact tableOk_returnToView (w := s.work.onState fun s => s.withShelf (dropEntry u s.shelf)) (h.congr rfl rfl rfl) _
  | start => exact tableOk_start (w := s.work) h
  | stop => exact tableOk_stop s.work
  | supervisionExpiry => exact tableOk_supervisionExpiry (w := s.work) h
  | qualified l => exact tableOk_qualified (w := s.work) h l
  | releaseLine l => exact tableOk_moveLine (tableOk_markChattering (w := s.work) h _ _) _ _
  | shelfExpiry u =>
    exact tableOk_returnToView (w := (s.work.onState fun s => s.withShelf (dropEntry u s.shelf)).flag .shelfExpiry)
      (h.congr rfl rfl rfl) _
  | realert p n hn =>
    unfold Work.realertExpiry
    dsimp only
    split <;> exact tableOk_change (w := s.work) h _ fun _ => rfl
  | ackPress =>
    exact (foldl_keeps (P := fun w => w.st.TableOk) (fun _ p h => tableOk_ack h p) _ (w := s.work) h).congr rfl rfl rfl
  | silencePress => exact (tableOk_silenceAll (w := s.work) h).congr rfl rfl rfl
  | resetPress =>
    exact (foldl_keeps (P := fun w => w.st.TableOk) (fun _ p h => tableOk_resetAt h p) _ (w := s.work) h).congr rfl rfl rfl
  | scroll up => exact h.congr rfl rfl rfl
  | scrollHome => exact tableOk_scrollHome h

theorem tableOk_settle {b : State} {w : Work} (h : w.st.TableOk) : (settle b w).TableOk :=
  h.congr (by rw [settle_nt]) (by rw [settle_nt]) (by rw [State.active, settle_pt]; rfl)

/-- A step takes nothing, or runs a command on the state with the rest of the queue. -/
theorem step_cases {s t : State} (h : step s = .next t) : Aside s t ∨ ∃ s0, Aside s s0 ∧ StepTo s0 t := by
  unfold step at h
  split at h
  · cases h; exact .inl (.refl s)
  · next c rest _ => exact .inr ⟨s.withPending rest, ⟨rfl, rfl, rfl, rfl, rfl, id, rfl, rfl, id⟩, exec_stepTo h⟩

/-- Settles O4: each operation of the table keeps its law, so each event does, and nothing else touches the table. -/
theorem stepKeepsTheTable : Obligations.StepKeepsTheTable := by
  intro s t hs h
  rcases step_cases h with h | ⟨s0, h0, h⟩
  · exact h.tableOk hs
  have hs0 := h0.tableOk hs
  cases h with
  | aside _ h => exact h.tableOk hs0
  | ticked => exact hs0.congr (points_map (f := fun n : Notice => { n with realert := n.realert.map Countdown.tick }) (fun _ => rfl) _) rfl rfl
  | cleared s1 c => exact tableOk_of_empty rfl rfl (show PointTable.reset.cond.get panelOverflow = false by decide)
  | event s1 w _ h1 hw ht => exact ht.tableOk (tableOk_settle (tableOk_event hw (h1.tableOk hs0)))
  | transaction k j => exact tableOk_settle (tableOk_transaction (w := (s0.withLink k).work) (hs0.congr rfl rfl rfl) j)

end Sys2Proof.Machine

/-! What every event but the few that own it leaves: the mode, the point records, the Shelf List, the window top and the course of
the Link; and from that the laws of CONFIG, the Link, the window, the Shelf List, the chirp burst and the parents in every step. -/

namespace Sys2Proof.Machine

/-- State b has of state a what the operations at conditions and notices never move. -/
structure Steady (a b : State) : Prop where
  mode : b.ctl.mode = a.ctl.mode
  points : b.pt.points = a.pt.points
  shelf : b.shelf = a.shelf
  top : b.pres.top = a.pres.top
  lineMode : b.pres.lineMode = a.pres.lineMode
  link : a.link.SameCourse b.link

theorem Steady.refl (a : State) : Steady a a := ⟨rfl, rfl, rfl, rfl, rfl, .refl _⟩

theorem Steady.trans {a b c : State} (h : Steady a b) (k : Steady b c) : Steady a c :=
  ⟨k.mode.trans h.mode, k.points.trans h.points, k.shelf.trans h.shelf, k.top.trans h.top, k.lineMode.trans h.lineMode,
    h.link.trans' k.link⟩

theorem TableStep.steady {a b : State} (h : TableStep a b) : Steady a b :=
  ⟨by rw [h.ctl], h.points, h.shelf, by rw [h.pres], by rw [h.pres], h.sameCourse⟩

theorem steady_putCond (w : Work) (p : Pt) (v : Bool) : Steady w.st (w.putCond p v).st := ⟨rfl, rfl, rfl, rfl, rfl, .refl _⟩

theorem steady_setSystem (w : Work) (p : Pt) (v : Bool) : Steady w.st (w.setSystem p v).st := by
  by_cases h : w.st.active p = v
  · rw [Work.setSystem, if_pos h]; exact .refl _
  · exact (steady_putCond w p v).trans (tableStep_setSystem w p v h).steady

theorem steady_setUser (w : Work) (u : UserPt) (v edge : Bool) : Steady w.st (w.setUser u v edge).st := by
  by_cases h : w.st.active (UserPt.pt u) = v
  · rw [setUser_same w u v edge h]; exact .refl _
  · exact (steady_putCond w _ v).trans (tableStep_setUser w u v edge h).steady

theorem steady_foldl {α : Type} {f : Work → α → Work} (hf : ∀ w x, TableStep w.st (f w x).st) (l : List α) (w : Work) :
    Steady w.st (l.foldl f w).st := (tableStep_foldl f hf l w).steady

theorem steady_raiseEach (kind : RaiseKind) (w : Work) (us : List UserPt) : Steady w.st (Work.raiseEach kind w us).st :=
  steady_foldl (fun w u => tableStep_raiseUser w kind u .none) us w

theorem tableStep_retireAt (w : Work) (p : Pt) : TableStep w.st (w.retireAt p).st := by
  unfold Work.retireAt
  split
  · exact tableStep_retire _ _
  · exact .refl _

theorem steady_disableGroup (w : Work) (g : GroupNo) : Steady w.st (w.disableGroup g).st := by
  have hretired := (tableStep_withdraw w fun u => (w.st.pointRec u).group = g).trans
    (tableStep_foldl Work.retireAt tableStep_retireAt
      ((w.withdraw fun u => (w.st.pointRec u).group = g).st.groupNotices g) _)
  have hcleared (v : Work) : Steady v.st (v.onState fun s => s.clearGroupLinks g).st := ⟨rfl, rfl, rfl, rfl, rfl, .refl _⟩
  exact ((hretired.steady.trans (hcleared _)).trans (tableStep_releaseAll _ _).steady).trans (tableStep_setMarker _ g none).steady

theorem steady_writeGroup (w : Work) (a : GroupWrite) : Steady w.st (w.writeGroup a).st := by
  have hput : Steady w.st (w.onState fun s => s.putGroup a).st := ⟨rfl, rfl, rfl, rfl, rfl, .refl _⟩
  unfold Work.writeGroup
  dsimp only
  split
  · exact hput
  · exact hput.trans (steady_disableGroup _ _)
  · exact hput.trans (steady_raiseEach _ _ _)
  · split
    · exact hput
    · exact hput.trans (steady_foldl (fun w p => tableStep_change w p _) _ _)
  · exact hput

theorem steady_setBound (w : Work) (bound : Option UserPt) (v : Bool) : Steady w.st (w.setBound bound v).st := by
  unfold Work.setBound
  split
  · exact steady_setUser _ _ _ _
  · exact .refl _

theorem steady_writeLine (w : Work) (a : LineWrite) : Steady w.st (w.writeLine a).st := by
  have hput (r : LineRec) : Steady w.st (w.onState fun s => s.putLine a.line r).st := ⟨rfl, rfl, rfl, rfl, rfl, .refl _⟩
  unfold Work.writeLine
  dsimp only
  split
  · exact ((hput _).trans (steady_setBound _ _ _)).trans (steady_setBound _ _ _)
  · split
    · exact (hput _).trans (steady_setBound _ _ _)
    · exact hput _

theorem steady_moveLine (w : Work) (l : LineNo) (r : LineRec) : Steady w.st (w.moveLine l r).st := by
  have hput : Steady w.st (w.onState fun s => s.putLine l r).st := ⟨rfl, rfl, rfl, rfl, rfl, .refl _⟩
  unfold Work.moveLine
  dsimp only
  split
  · split
    · exact hput
    · exact hput.trans (steady_setUser _ _ _ _)
  · exact hput

theorem steady_markChattering (w : Work) (bound : Option UserPt) (v : Bool) : Steady w.st (w.markChattering bound v).st := by
  unfold Work.markChattering
  split
  · exact (tableStep_setChattering _ _ _).steady
  · exact .refl _

theorem steady_qualified (w : Work) (l : LineNo) : Steady w.st (w.qualified l).st := by
  unfold Work.qualified
  dsimp only
  split
  · split
    · exact ((steady_markChattering _ _ _).trans (steady_moveLine _ _ _)).trans (tableStep_flag _ _).steady
    · exact steady_moveLine _ _ _
  · exact steady_moveLine _ _ _
  · exact .refl _
  · exact .refl _

theorem steady_silenceAll (w : Work) : Steady w.st w.silenceAll.st :=
  (show Steady w.st (w.st.withSnd { w.st.snd with chirp := none }) from ⟨rfl, rfl, rfl, rfl, rfl, .refl _⟩).trans (tableStep_silenceAll w).steady

theorem steady_supervisionExpiry (w : Work) : Steady w.st w.supervisionExpiry.st :=
  (show Steady w.st (w.onState fun s => s.withLink { s.link with sup := .expired, supTimer := none }).st from
    ⟨rfl, rfl, rfl, rfl, rfl, ⟨rfl, rfl, rfl, rfl, rfl, rfl⟩⟩).trans
    ((steady_setSystem _ _ _).trans (steady_foldl (fun w p => tableStep_setStale true w p) _ _))

theorem steady_realertExpiry (w : Work) (n : Notice) : Steady w.st (w.realertExpiry n).st := by
  unfold Work.realertExpiry
  dsimp only
  split <;> exact (tableStep_change _ _ _).steady

theorem steady_hostReturn (w : Work) : Steady w.st w.hostReturn.st :=
  (steady_setSystem _ _ _).trans (steady_foldl (fun w p => tableStep_setStale false w p) _ _)

theorem steady_restartSupervision (w : Work) : Steady w.st w.restartSupervision.st := by
  have hrun (v : Work) : Steady v.st (v.onState fun s => s.withLink s.link.runSupervision).st :=
    ⟨rfl, rfl, rfl, rfl, rfl, ⟨rfl, rfl, rfl, rfl, rfl, rfl⟩⟩
  unfold Work.restartSupervision
  split
  · exact .refl _
  · exact hrun _
  · exact (steady_hostReturn _).trans (hrun _)

/-- Beside the Link's own part, a transaction is supervision's. -/
theorem steady_transaction (w : Work) (j : Judgement) :
    Steady (w.st.withLink (w.st.link.judged j)) (w.transaction j).st := by
  unfold Work.transaction
  dsimp only
  split
  · split
    · exact (tableStep_flag (w.onState fun s => s.withLink (s.link.judged j)) _).steady.trans (steady_restartSupervision _)
    · exact steady_restartSupervision (w.onState fun s => s.withLink (s.link.judged j))
  · split
    · exact (tableStep_flag (w.onState fun s => s.withLink (s.link.judged j)) _).steady
    · exact .refl _

theorem start_steady (w : Work) :
    w.start.st.ctl.mode = .run ∧ w.start.st.pt.points = w.st.pt.points ∧ w.start.st.shelf = w.st.shelf ∧
      w.start.st.pres = w.st.pres ∧ w.st.link.SameCourse w.start.st.link := by
  have hraise := tableStep_foldl (fun w u => w.raiseUser .startUp u .none) (fun w u => tableStep_raiseUser w .startUp u .none)
    ((w.onState fun s => s.withCtl { s.ctl with mode := .run }).st.lineActive
      fun u => (w.onState fun s => s.withCtl { s.ctl with mode := .run }).st.groupEnabled u)
    (w.onState fun s => s.withCtl { s.ctl with mode := .run })
  refine ⟨congrArg Control.mode hraise.ctl, hraise.points, hraise.shelf, hraise.pres, hraise.sameCourse.trans' ?_⟩
  show Link.SameCourse _ (Link.superviseFromStart _)
  unfold Link.superviseFromStart
  split <;> exact ⟨rfl, rfl, rfl, rfl, rfl, rfl⟩

theorem steady_stop_link (w : Work) : w.st.link.SameCourse w.stop.st.link := by
  have hremoved := tableStep_foldl Work.removeQuietly
    (fun w p => by
      unfold Work.removeQuietly
      split
      · exact tableStep_remove _ _ _
      · exact .refl _)
    (((w.onState State.emptyQueues).st.nt.notices.map (·.point))) (w.onState State.emptyQueues)
  have hempty : w.st.link.SameCourse (w.onState State.emptyQueues).st.link := ⟨rfl, rfl, rfl, rfl, rfl, rfl⟩
  exact hempty.trans' hremoved.sameCourse

/-! ## The Link's law -/

theorem linkOk_start {s : State} (h : s.LinkOk) : s.work.start.st.LinkOk := linkOk_of_sameCourse (start_steady s.work).2.2.2.2 h

theorem linkOk_event {s : State} {w : Work} (hw : EventOf s w) (h : s.LinkOk) : w.st.LinkOk := by
  have steady (hst : Steady s w.st) : w.st.LinkOk := linkOk_of_sameCourse hst.link h
  cases hw with
  | aside v _ hv => exact hv.link h
  | writePoint | shelve | scroll => exact h
  | rewritePoint u r =>
    unfold Work.rewritePoint
    dsimp only
    split
    · exact linkOk_of_sameCourse (steady_setUser (s.work.onState fun s => s.putPoint u r) u false false).link h
    · exact h
  | writeGroup a => exact steady (steady_writeGroup s.work a)
  | writeLine a => exact steady (steady_writeLine s.work a)
  | writePanel a =>
    refine linkOk_of_sameCourse (s := s) ?_ h
    show s.link.SameCourse (s.link.withSupervision s.ctl.mode a.supervision)
    rw [Link.withSupervision_frame]
    exact ⟨rfl, rfl, rfl, rfl, rfl, rfl⟩
  | hostRaise u f => exact linkOk_of_sameCourse (tableStep_raiseUser (s.work.putCond (UserPt.pt u) true) .link u f).sameCourse h
  | clear u => exact steady (steady_setUser s.work u false true)
  | ackAll scope => exact steady (tableStep_ackAll s.work scope).steady
  | resetAll scope => exact steady (tableStep_resetAll s.work scope).steady
  | silence => exact steady (steady_silenceAll s.work)
  | retire p n => exact steady (tableStep_retire s.work n).steady
  | unshelve u =>
    exact linkOk_of_sameCourse (tableStep_returnToView (s.work.onState fun s => s.withShelf (dropEntry u s.shelf)) _).sameCourse h
  | start => exact linkOk_start h
  | stop => exact linkOk_of_sameCourse (steady_stop_link s.work) h
  | supervisionExpiry => exact steady (steady_supervisionExpiry s.work)
  | qualified l => exact steady (steady_qualified s.work l)
  | releaseLine l => exact steady ((steady_markChattering s.work _ _).trans (steady_moveLine _ _ _))
  | shelfExpiry u =>
    exact linkOk_of_sameCourse (tableStep_returnToView
      ((s.work.onState fun s => s.withShelf (dropEntry u s.shelf)).flag .shelfExpiry) _).sameCourse
      (linkOk_of_sameCourse ⟨rfl, rfl, rfl, rfl, rfl, rfl⟩ h)
  | realert p n => exact steady (steady_realertExpiry s.work n)
  | ackPress => exact steady ((tableStep_ackAll s.work _).trans (tableStep_flag _ _)).steady
  | silencePress => exact steady ((steady_silenceAll s.work).trans (tableStep_flag _ _).steady)
  | resetPress => exact steady ((tableStep_resetAll s.work _).trans (tableStep_flag _ _)).steady
  | scrollHome =>
    refine linkOk_of_sameCourse (s := s) ?_ h
    show s.link.SameCourse s.scrollHome.link
    unfold State.scrollHome
    dsimp only
    split <;> exact .refl _

/-- R163: a judgement puts the Link to work exactly when it takes a request, which it does only where none is at hand. -/
theorem linkOk_judged {s : State} (hs : s.LinkOk) {j : Judgement}
    (hj : ∀ x, j.request? = some x → s.link.state ≠ .working ∧ s.link.slot = none) (htrans : s.link.trans = none) :
    (s.withLink (s.link.judged j)).LinkOk := by
  obtain ⟨hworking, hready, -, hmuted⟩ := hs
  cases j with
  | taken x =>
    obtain ⟨-, hslot⟩ := hj x rfl
    refine ⟨iff_of_true rfl rfl, iff_of_false (fun h => nomatch h) (fun h => ?_), fun t ht => ?_, hmuted⟩
    · change s.link.slot.isSome = true at h
      rw [hslot] at h
      cases h
    · change s.link.trans = some t at ht
      rw [htrans] at ht
      cases ht
  | poll | badFrame | badCrc | softReset | refusedBusy | refusedUnread =>
    refine ⟨hworking, hready, fun t ht => ?_, hmuted⟩
    change s.link.trans = some t at ht
    rw [htrans] at ht
    cases ht

theorem linkOk_settle {b : State} {w : Work} (h : w.st.LinkOk) : (settle b w).LinkOk :=
  linkOk_of_sameCourse (by rw [settle_link]; exact .refl _) h

/-- Settles O7: the events leave the Link's course; a CSN edge, a judgement, a placement and a reset set it whole. -/
theorem stepKeepsTheLinkState : Obligations.StepKeepsTheLinkState := by
  intro s t hs h
  rcases step_cases h with h | ⟨s0, h0, h⟩
  · exact h.link hs
  have hs0 := h0.link hs
  cases h with
  | aside _ h => exact h.link hs0
  | ticked => exact linkOk_of_sameCourse (t := s0.ticked) ⟨rfl, rfl, rfl, rfl, rfl, rfl⟩ hs0
  | cleared s1 c _ hl =>
    refine ⟨iff_of_false (fun h => nomatch h) (fun h => nomatch h), iff_of_false (fun h => nomatch h) (fun h => nomatch h),
      fun t ht => ?_, fun hm => ⟨hl hs0 hm, rfl⟩⟩
    cases ht
  | event s1 w _ h1 hw ht => exact ht.link (linkOk_settle (linkOk_event hw (h1.link hs0)))
  | transaction k j hk hj htrans =>
    exact linkOk_settle (linkOk_of_sameCourse (steady_transaction (s0.withLink k).work j).link
      (linkOk_judged (hk hs0) hj htrans))

/-! ## CONFIG -/

/-- R6, R199: in CONFIG a condition moves alone. -/
theorem setUser_in_config {w : Work} (h : w.st.ctl.mode = .config) (u : UserPt) (v edge : Bool) :
    w.setUser u v edge = w.putCond (UserPt.pt u) v := by
  by_cases hv : w.st.active (UserPt.pt u) = v
  · rw [setUser_same w u v edge hv, putCond_self hv]
  · rw [setUser_changes hv, if_neg (by rw [h]; decide), Work.edged, if_neg]
    simp [State.delivers, show (w.putCond (UserPt.pt u) v).st.ctl.mode = .config from h]

theorem setSystem_in_config {w : Work} (h : w.st.ctl.mode = .config) (p : Pt) (v : Bool) : w.setSystem p v = w.putCond p v := by
  by_cases hv : w.st.active p = v
  · rw [Work.setSystem, if_pos hv, putCond_self hv]
  · rw [Work.setSystem, if_neg hv]
    exact if_neg (by simp [State.delivers, show (w.putCond p v).st.ctl.mode = .config from h])

theorem nt_setBound_in_config {w : Work} (h : w.st.ctl.mode = .config) (bound : Option UserPt) (v : Bool) :
    (w.setBound bound v).st.nt = w.st.nt ∧ (w.setBound bound v).st.ctl.mode = .config := by
  unfold Work.setBound
  split
  · rw [setUser_in_config h]; exact ⟨rfl, h⟩
  · exact ⟨rfl, h⟩

theorem nt_writeLine_in_config {w : Work} (h : w.st.ctl.mode = .config) (a : LineWrite) : (w.writeLine a).st.nt = w.st.nt := by
  have hput (r : LineRec) (b : Option UserPt) (v : Bool) :=
    nt_setBound_in_config (w := w.onState fun s => s.putLine a.line r) h b v
  unfold Work.writeLine
  dsimp only
  split
  · exact (nt_setBound_in_config (hput _ _ _).2 _ _).1.trans (hput _ _ _).1
  · split
    · exact (hput _ _ _).1
    · rfl

theorem nt_moveLine_in_config {w : Work} (h : w.st.ctl.mode = .config) (l : LineNo) (r : LineRec) :
    (w.moveLine l r).st.nt = w.st.nt := by
  unfold Work.moveLine
  dsimp only
  split
  · split
    · rfl
    · rw [setUser_in_config (w := w.onState fun s => s.putLine l r) h]
      rfl
  · rfl

/-- A lookup in an empty table. -/
theorem notice?_of_empty {s : State} (h : s.nt.notices = []) (p : Pt) : s.notice? p = none := by
  rw [State.notice?, h]
  rfl

theorem setChattering_of_empty {w : Work} (h : w.st.nt.notices = []) (v : Bool) (p : Pt) : w.setChattering v p = w := by
  rw [Work.setChattering, notice?_of_empty h]

theorem setStale_of_empty {w : Work} (h : w.st.nt.notices = []) (v : Bool) (p : Pt) : w.setStale v p = w := by
  rw [Work.setStale, notice?_of_empty h]

theorem returnToView_of_empty {w : Work} (h : w.st.nt.notices = []) (p : Pt) : w.returnToView p = w := by
  rw [Work.returnToView, Work.reannounce, notice?_of_empty h, ite_self]

theorem markChattering_of_empty {w : Work} (h : w.st.nt.notices = []) (b : Option UserPt) (v : Bool) :
    w.markChattering b v = w := by
  unfold Work.markChattering
  split
  · exact setChattering_of_empty h _ _
  · rfl

theorem nt_qualified_in_config {w : Work} (h : w.st.ctl.mode = .config) (he : w.st.nt.notices = []) (l : LineNo) :
    (w.qualified l).st.nt = w.st.nt := by
  unfold Work.qualified
  dsimp only
  split
  · split
    · rw [Work.enterHold, markChattering_of_empty he]
      exact nt_moveLine_in_config h _ _
    · exact nt_moveLine_in_config h _ _
  · exact nt_moveLine_in_config h _ _
  · rfl
  · rfl

theorem nt_supervisionExpiry_in_config {w : Work} (h : w.st.ctl.mode = .config) (he : w.st.nt.notices = []) :
    w.supervisionExpiry.st.nt = w.st.nt := by
  unfold Work.supervisionExpiry
  dsimp only
  rw [setSystem_in_config (w := w.onState fun s => s.withLink { s.link with sup := .expired, supTimer := none }) h,
    State.linkNotices, show ((w.onState fun s => s.withLink { s.link with sup := .expired, supTimer := none }).putCond hostSilent true).st.nt.notices = []
      from he]
  rfl

theorem nt_hostReturn_in_config {w : Work} (h : w.st.ctl.mode = .config) (he : w.st.nt.notices = []) :
    w.hostReturn.st.nt = w.st.nt := by
  unfold Work.hostReturn
  dsimp only
  rw [setSystem_in_config h, show (w.putCond hostSilent false).st.nt.notices = [] from he]
  rfl

theorem nt_restartSupervision_in_config {w : Work} (h : w.st.ctl.mode = .config) (he : w.st.nt.notices = []) :
    w.restartSupervision.st.nt = w.st.nt := by
  unfold Work.restartSupervision
  split
  · rfl
  · rfl
  · exact nt_hostReturn_in_config h he

theorem nt_transaction_in_config {w : Work} (h : w.st.ctl.mode = .config) (he : w.st.nt.notices = []) (j : Judgement) :
    (w.transaction j).st.nt = w.st.nt := by
  unfold Work.transaction
  dsimp only
  split
  · split
    · exact nt_restartSupervision_in_config
        (w := (w.onState fun s => s.withLink (s.link.judged j)).flag .linkFault) h he
    · exact nt_restartSupervision_in_config (w := w.onState fun s => s.withLink (s.link.judged j)) h he
  · split <;> rfl

/-- The three items of CONFIG's law after what leaves the table and takes no entry to the Shelf List. -/
theorem configEmpty_of_kept {s t : State} (hm : t.ctl.mode = s.ctl.mode) (hnt : s.ctl.mode = .config → s.nt.notices = [] → t.nt = s.nt)
    (hshelf : s.shelf = [] → t.shelf = []) (h : s.ConfigEmpty) : t.ConfigEmpty := by
  intro hc
  have hcs := hm.symm.trans hc
  obtain ⟨hn, hp, hsh⟩ := h hcs
  rw [hnt hcs hn]
  exact ⟨hn, hp, hshelf hsh⟩

theorem Aside.configEmpty {s t : State} (h : Aside s t) (hs : s.ConfigEmpty) : t.ConfigEmpty :=
  configEmpty_of_kept h.mode (fun _ _ => h.nt) (fun he => h.shelf.trans he) hs

/-- An event that runs in RUN alone and stays there. -/
theorem configEmpty_of_run {s t : State} (hm : s.ctl.mode = .run) (hst : t.ctl.mode = s.ctl.mode) : t.ConfigEmpty := by
  intro hc
  rw [hst, hm] at hc
  cases hc

theorem shelf_stop (w : Work) : w.stop.st.shelf = [] := by
  have hremoved := tableStep_foldl Work.removeQuietly
    (fun w p => by
      unfold Work.removeQuietly
      split
      · exact tableStep_remove _ _ _
      · exact .refl _)
    (((w.onState State.emptyQueues).st.nt.notices.map (·.point))) (w.onState State.emptyQueues)
  exact hremoved.shelf

theorem configEmpty_event {s : State} {w : Work} (hw : EventOf s w) (h : s.ConfigEmpty) : w.st.ConfigEmpty := by
  have kept (hst : Steady s w.st) (hnt : s.ctl.mode = .config → s.nt.notices = [] → w.st.nt = s.nt) : w.st.ConfigEmpty :=
    configEmpty_of_kept hst.mode hnt (fun he => hst.shelf.trans he) h
  cases hw with
  | aside v _ hv => exact hv.configEmpty h
  | writePoint | scroll => exact h
  | rewritePoint u r hm =>
    refine configEmpty_of_run hm ?_
    unfold Work.rewritePoint
    dsimp only
    split
    · exact (steady_setUser (s.work.onState fun s => s.putPoint u r) u false false).mode
    · rfl
  | writeGroup a =>
    refine kept (steady_writeGroup s.work a) fun hm _ => ?_
    unfold Work.writeGroup
    dsimp only
    rw [show s.work.st.ctl.mode = .config from hm]
    rfl
  | writeLine a hm => exact kept (steady_writeLine s.work a) fun _ _ => nt_writeLine_in_config (w := s.work) hm a
  | writePanel a =>
    refine configEmpty_of_kept (s := s) rfl (fun _ he => ?_) id h
    show (s.putPanel a).nt = s.nt
    rw [putPanel_notices, he, List.map_nil, ite_self, ← he]
  | hostRaise u f hm => exact configEmpty_of_run hm (tableStep_raiseUser (s.work.putCond (UserPt.pt u) true) .link u f).steady.mode
  | clear u hm => exact configEmpty_of_run hm (steady_setUser s.work u false true).mode
  | ackAll scope hm => exact configEmpty_of_run hm (tableStep_ackAll s.work scope).steady.mode
  | resetAll scope hm => exact configEmpty_of_run hm (tableStep_resetAll s.work scope).steady.mode
  | silence hm => exact configEmpty_of_run hm (steady_silenceAll s.work).mode
  | retire p n hm => exact configEmpty_of_run hm (tableStep_retire s.work n).steady.mode
  | shelve u m hm => exact configEmpty_of_run hm rfl
  | unshelve u hm =>
    exact configEmpty_of_run hm (tableStep_returnToView (s.work.onState fun s => s.withShelf (dropEntry u s.shelf)) _).steady.mode
  | start => exact fun hc => by rw [(start_steady s.work).1] at hc; cases hc
  | stop => exact fun _ => ⟨(nt_stop s.work).1, (nt_stop s.work).2, shelf_stop s.work⟩
  | supervisionExpiry =>
    exact kept (steady_supervisionExpiry s.work) fun hm he => nt_supervisionExpiry_in_config (w := s.work) hm he
  | qualified l => exact kept (steady_qualified s.work l) fun hm he => nt_qualified_in_config (w := s.work) hm he l
  | releaseLine l =>
    refine kept ((steady_markChattering s.work _ _).trans (steady_moveLine _ _ _)) fun hm he => ?_
    rw [Work.releaseLine, markChattering_of_empty he]
    exact nt_moveLine_in_config hm _ _
  | shelfExpiry u =>
    have hst := (tableStep_returnToView ((s.work.onState fun s => s.withShelf (dropEntry u s.shelf)).flag .shelfExpiry)
      (UserPt.pt u)).steady
    refine configEmpty_of_kept (s := s) hst.mode (fun _ he => ?_) (fun he => hst.shelf.trans ?_) h
    · rw [Work.shelfExpiry, returnToView_of_empty he]
      rfl
    · show dropEntry u s.shelf = []
      rw [he]
      rfl
  | realert p n hn =>
    refine kept (steady_realertExpiry s.work n) fun _ he => ?_
    rw [notice?_of_empty he] at hn
    cases hn
  | ackPress hm => exact configEmpty_of_run hm ((tableStep_ackAll s.work _).trans (tableStep_flag _ _)).steady.mode
  | silencePress hm => exact configEmpty_of_run hm ((steady_silenceAll s.work).trans (tableStep_flag _ _).steady).mode
  | resetPress hm => exact configEmpty_of_run hm ((tableStep_resetAll s.work _).trans (tableStep_flag _ _)).steady.mode
  | scrollHome =>
    refine configEmpty_of_kept (s := s) ?_ (fun _ _ => ?_) (fun he => ?_) h
    all_goals
      unfold State.scrollHome Work.onState
      dsimp only
      split <;> first | rfl | exact he

theorem configEmpty_settle {b : State} {w : Work} (h : w.st.ConfigEmpty) : (settle b w).ConfigEmpty :=
  configEmpty_of_kept (by rw [settle_ctl]) (fun _ _ => settle_nt b w) (fun he => (settle_shelf b w).trans he) h

/-- Settles O5: in CONFIG no event creates, pends or shelves, STOP empties, and START leaves CONFIG. -/
theorem stepKeepsConfigEmpty : Obligations.StepKeepsConfigEmpty := by
  intro s t hs h
  rcases step_cases h with h | ⟨s0, h0, h⟩
  · exact h.configEmpty hs
  have hs0 := h0.configEmpty hs
  cases h with
  | aside _ h => exact h.configEmpty hs0
  | ticked =>
    intro hc
    obtain ⟨hn, hp, hsh⟩ := hs0 hc
    refine ⟨?_, hp, ?_⟩
    · show List.map _ s0.nt.notices = []
      rw [hn]; rfl
    · show List.map _ s0.shelf = []
      rw [hsh]; rfl
  | cleared s1 c => exact fun _ => ⟨rfl, rfl, rfl⟩
  | event s1 w _ h1 hw ht => exact ht.configEmpty (configEmpty_settle (configEmpty_event hw (h1.configEmpty hs0)))
  | transaction k j =>
    have hst := steady_transaction (s0.withLink k).work j
    exact configEmpty_settle (configEmpty_of_kept (s := s0) hst.mode
      (fun hm he => nt_transaction_in_config (w := (s0.withLink k).work) hm he j) (fun he => hst.shelf.trans he) hs0)

end Sys2Proof.Machine

/-! The window top, the Shelf List, the chirp burst and the parents in every step. -/

namespace Sys2Proof.Machine

/-! ## The window top -/

theorem anchoredTop_le (s : State) (alerts : List Pt) : s.anchoredTop alerts ≤ s.topLimit := by
  unfold State.anchoredTop
  dsimp only
  split
  · split
    · exact Nat.zero_le _
    · exact Nat.min_le_right _ _
  · exact Nat.min_le_right _ _

/-- The window's law reads the view's length, the line mode and the top. -/
theorem windowOk_congr {s t : State} (hp : t.presented.length = s.presented.length) (hm : t.pres.lineMode = s.pres.lineMode)
    (ht : t.pres.top = s.pres.top) (h : s.WindowOk) : t.WindowOk := by
  show t.pres.top ≤ t.presented.length - t.pres.lineMode.windowSize
  rw [hp, hm, ht]
  exact h

theorem presented_congr {s t : State} (hnt : t.nt = s.nt) (hpt : t.pt = s.pt) (hsh : t.shelf = s.shelf) :
    t.presented = s.presented := by
  unfold State.presented State.rankList State.withheld State.shelved State.shelfEntry? State.suppressed State.parentOf
    State.pointRec State.active
  rw [hnt, hpt, hsh]

theorem Aside.windowOk {s t : State} (h : Aside s t) (hs : s.WindowOk) : t.WindowOk :=
  windowOk_congr (by rw [presented_congr h.nt h.pt h.shelf]) h.lineMode h.top hs

theorem topLimit_settle (b : State) (w : Work) : (settle b w).topLimit = w.st.topLimit := by
  rw [State.topLimit, settle_presented, (presStep_settle b w).lineMode]
  rfl

/-- R144: an anchored window lies within its limit; one that is not anchored stays where it was. -/
theorem windowOk_settle {b : State} {w : Work}
    (h : w.st.WindowOk ∨ (w.st.ctl.mode = .run ∧ (w.notify = true ∨ b.viewShape ≠ w.st.viewShape))) : (settle b w).WindowOk := by
  show (settle b w).pres.top ≤ (settle b w).topLimit
  rw [topLimit_settle]
  by_cases hmoved : ((w.notify || b.viewShape ≠ w.st.viewShape) && w.st.ctl.mode = .run) = true
  · have htop : (settle b w).pres.top = w.st.anchoredTop w.alerts := by
      unfold settle
      dsimp only
      rw [if_pos hmoved]
      split
      · exact (requestComposition_window _).1
      · rfl
    rw [htop]
    exact anchoredTop_le _ _
  · have htop : (settle b w).pres.top = w.st.pres.top := by
      unfold settle
      dsimp only
      rw [if_neg hmoved]
      split
      · exact (requestComposition_window _).1
      · rfl
    rw [htop]
    rcases h with h | ⟨hr, hv⟩
    · exact h
    · exact absurd (by rw [hr]; rcases hv with hv | hv <;> simp [hv]) hmoved

/-- An event that leaves the mode and the top: in CONFIG the top is 0, in RUN the window is anchored or the view stands. -/
theorem windowOk_settle_kept {b : State} {w : Work} (hm : w.st.ctl.mode = b.ctl.mode) (ht : w.st.pres.top = b.pres.top)
    (hl : b.ctl.mode = .run → w.st.pres.lineMode = b.pres.lineMode) (hc : b.ConfigEmpty) (h : b.WindowOk) :
    (settle b w).WindowOk := by
  apply windowOk_settle
  cases hmode : b.ctl.mode with
  | config =>
    left
    have hempty : b.presented = [] := presented_of_no_notices (hc hmode).1
    have hzero : b.pres.top = 0 := by
      have h : b.pres.top ≤ b.presented.length - _ := h
      rw [hempty] at h
      simpa using h
    show w.st.pres.top ≤ _
    rw [ht, hzero]
    exact Nat.zero_le _
  | run =>
    by_cases hv : b.viewShape = w.st.viewShape
    · refine .inl (windowOk_congr ?_ (hl hmode) ht h)
      have hlen := congrArg List.length hv
      simpa [State.viewShape] using hlen.symm
    · exact .inr ⟨hm.trans hmode, .inr hv⟩

theorem windowOk_scrollStep {s : State} (h : s.WindowOk) (up : Bool) : (s.scrollStep up).WindowOk := by
  show (if up then s.pres.top - 1 else if s.pres.top < s.topLimit then s.pres.top + 1 else s.pres.top) ≤ s.topLimit
  have h : s.pres.top ≤ s.topLimit := h
  split
  · omega
  · split <;> omega

theorem windowOk_scrollHome {s : State} (h : s.WindowOk) : s.scrollHome.WindowOk := by
  unfold State.scrollHome
  dsimp only
  split
  · exact Nat.zero_le _
  · exact h

theorem windowOk_event {s : State} {w : Work} (hw : EventOf s w) (hc : s.ConfigEmpty) (h : s.WindowOk) : (settle s w).WindowOk := by
  have steady (hst : Steady s w.st) : (settle s w).WindowOk :=
    windowOk_settle_kept hst.mode hst.top (fun _ => hst.lineMode) hc h
  cases hw with
  | aside v _ hv => exact windowOk_settle (.inl (hv.windowOk h))
  | writePoint | shelve => exact windowOk_settle_kept rfl rfl (fun _ => rfl) hc h
  | rewritePoint u r =>
    have hst : Steady (s.putPoint u r) (s.work.rewritePoint u r).st := by
      unfold Work.rewritePoint
      dsimp only
      split
      · exact steady_setUser (s.work.onState fun s => s.putPoint u r) u false false
      · exact .refl _
    exact windowOk_settle_kept hst.mode hst.top (fun _ => hst.lineMode) hc h
  | writeGroup a => exact steady (steady_writeGroup s.work a)
  | writeLine a => exact steady (steady_writeLine s.work a)
  | writePanel a hl => exact windowOk_settle_kept rfl rfl (fun hm => (hl hm).symm) hc h
  | hostRaise u f => exact steady ((steady_putCond s.work _ true).trans (tableStep_raiseUser _ .link u f).steady)
  | clear u => exact steady (steady_setUser s.work u false true)
  | ackAll scope => exact steady (tableStep_ackAll s.work scope).steady
  | resetAll scope => exact steady (tableStep_resetAll s.work scope).steady
  | silence => exact steady (steady_silenceAll s.work)
  | retire p n => exact steady (tableStep_retire s.work n).steady
  | unshelve u =>
    have hst := (tableStep_returnToView (s.work.onState fun s => s.withShelf (dropEntry u s.shelf)) (UserPt.pt u)).steady
    exact windowOk_settle_kept hst.mode hst.top (fun _ => hst.lineMode) hc h
  | start => exact windowOk_settle (.inr ⟨(start_steady s.work).1, .inl rfl⟩)
  | stop => exact windowOk_settle (.inl (Nat.zero_le _))
  | supervisionExpiry => exact steady (steady_supervisionExpiry s.work)
  | qualified l => exact steady (steady_qualified s.work l)
  | releaseLine l => exact steady ((steady_markChattering s.work _ _).trans (steady_moveLine _ _ _))
  | shelfExpiry u =>
    have hst := (tableStep_returnToView ((s.work.onState fun s => s.withShelf (dropEntry u s.shelf)).flag .shelfExpiry)
      (UserPt.pt u)).steady
    exact windowOk_settle_kept hst.mode hst.top (fun _ => hst.lineMode) hc h
  | realert p n => exact steady (steady_realertExpiry s.work n)
  | ackPress => exact steady ((tableStep_ackAll s.work _).trans (tableStep_flag _ _)).steady
  | silencePress => exact steady ((steady_silenceAll s.work).trans (tableStep_flag _ _).steady)
  | resetPress => exact steady ((tableStep_resetAll s.work _).trans (tableStep_flag _ _)).steady
  | scroll up => exact windowOk_settle (.inl (windowOk_scrollStep h up))
  | scrollHome => exact windowOk_settle (.inl (windowOk_scrollHome h))

/-- R44, R75: a tick moves countdowns, and no notice in the view. -/
theorem unseenStep_ticked (s : State) :
    UnseenStep (fun n => { n with realert := n.realert.map Countdown.tick }) s s.ticked := by
  refine ⟨rfl, seenAlike_realert _, fun p => ?_⟩
  have hentry : s.ticked.shelved p = s.shelved p := by
    show (List.find? _ (s.shelf.map _)).isSome = (List.find? _ s.shelf).isSome
    rw [List.find?_map, Option.isSome_map]
    rfl
  show (s.ticked.shelved p || s.ticked.suppressed p) = (s.shelved p || s.suppressed p)
  rw [hentry]
  rfl

/-- Settles O8: an anchored window is clamped, a view that stands keeps its length, and CONFIG has an empty view. -/
theorem stepKeepsTheWindowTop : Obligations.StepKeepsTheWindowTop := by
  intro s t hc hs h
  rcases step_cases h with h | ⟨s0, h0, h⟩
  · exact h.windowOk hs
  have hs0 := h0.windowOk hs
  have hc0 := h0.configEmpty hc
  cases h with
  | aside _ h => exact h.windowOk hs0
  | ticked => exact windowOk_congr (unseenStep_ticked s0).length_presented rfl rfl hs0
  | cleared s1 c => exact Nat.zero_le _
  | event s1 w _ h1 hw ht => exact ht.windowOk (windowOk_event hw (h1.configEmpty hc0) (h1.windowOk hs0))
  | transaction k j =>
    have hst := steady_transaction (s0.withLink k).work j
    exact windowOk_settle_kept hst.mode hst.top (fun _ => hst.lineMode) hc0 hs0

/-! ## The Shelf List -/

theorem perm_insertEntry (e : ShelfEntry) (l : List ShelfEntry) : (insertEntry e l).Perm (e :: l) := by
  induction l with
  | nil => exact .refl _
  | cons m rest ih =>
    unfold insertEntry
    split
    · exact .refl _
    · exact (ih.cons m).trans (.swap _ _ _)

/-- R71: entries stand in order of expiry, and a new one keeps the order. -/
theorem insertEntry_ordered {e : ShelfEntry} {l : List ShelfEntry}
    (hl : l.Pairwise fun a b => a.point ≠ b.point ∧ a.time.left ≤ b.time.left) (hne : ∀ m ∈ l, m.point ≠ e.point) :
    (insertEntry e l).Pairwise fun a b => a.point ≠ b.point ∧ a.time.left ≤ b.time.left := by
  induction hl with
  | nil => exact List.pairwise_singleton _ _
  | @cons m rest hm hrest ih =>
    have hrestne := fun x hx => hne x (List.mem_cons_of_mem m hx)
    have hmne := hne m List.mem_cons_self
    unfold insertEntry
    split
    · next hlt =>
      refine .cons (fun x hx => ⟨(hne x hx).symm, ?_⟩) (.cons hm hrest)
      rcases List.mem_cons.1 hx with rfl | hx
      · exact le_of_lt hlt
      · exact le_trans (le_of_lt hlt) (hm x hx).2
    · next hge =>
      refine .cons (fun x hx => ?_) (ih hrestne)
      rcases List.mem_cons.1 ((perm_insertEntry e rest).mem_iff.1 hx) with rfl | hx
      · exact ⟨hmne, not_lt.1 hge⟩
      · exact hm x hx

/-- An entry that goes leaves the Shelf List's law. -/
theorem shelfOk_filter {s t : State} (keep : ShelfEntry → Bool) (ht : t.shelf = s.shelf.filter keep) (h : s.ShelfOk) : t.ShelfOk := by
  obtain ⟨hlen, hord, htimes⟩ := h
  rw [State.ShelfOk, ht]
  exact ⟨le_trans (List.length_filter_le _ _) hlen, hord.filter _, fun e he => htimes e (List.mem_filter.1 he).1⟩

theorem shelfOk_congr {s t : State} (ht : t.shelf = s.shelf) (h : s.ShelfOk) : t.ShelfOk := by
  rw [State.ShelfOk, ht]
  exact h

theorem shelved_iff (s : State) (u : UserPt) : s.shelved (UserPt.pt u) = true ↔ ∃ e ∈ s.shelf, e.point = u := by
  rw [State.shelved, State.shelfEntry?, List.find?_isSome]
  simp only [decide_eq_true_eq, pt_inj]

/-- R70 to R73: a shelved point's entry makes room for its new one. -/
theorem shelfOk_shelveFor {s : State} {u : UserPt} {minutes : Nat} (hlo : 1 ≤ minutes) (hhi : minutes ≤ 240)
    (hroom : s.shelved (UserPt.pt u) = true ∨ s.shelf.length < Config.shelfEntries) (h : s.ShelfOk) :
    (s.shelveFor u (minutes * 60)).ShelfOk := by
  obtain ⟨hlen, hord, htimes⟩ := h
  have hperm := perm_insertEntry { point := u, time := Countdown.start (minutes * 60) } (dropEntry u s.shelf)
  have hother : ∀ m ∈ dropEntry u s.shelf, m.point ≠ u := fun m hm => by simpa [dropEntry] using (List.mem_filter.1 hm).2
  show (insertEntry _ _).length ≤ _ ∧ (insertEntry _ _).Pairwise _ ∧ ∀ e ∈ insertEntry _ _, _
  refine ⟨?_, insertEntry_ordered (hord.filter _) hother, fun e he => ?_⟩
  · rw [hperm.length_eq, List.length_cons]
    rcases hroom with hshelved | hroom
    · obtain ⟨e, he, hu⟩ := (shelved_iff s u).1 hshelved
      have hlt : (dropEntry u s.shelf).length < s.shelf.length :=
        List.length_filter_lt_length_iff_exists.2 ⟨e, he, by simp [hu]⟩
      omega
    · have : (dropEntry u s.shelf).length ≤ s.shelf.length := List.length_filter_le _ _
      omega
  · rcases List.mem_cons.1 (hperm.mem_iff.1 he) with rfl | he
    · show 1 ≤ minutes * 60 ∧ minutes * 60 ≤ 14400
      omega
    · exact htimes e (List.mem_filter.1 he).1

theorem shelfOk_event {s : State} {w : Work} (hw : EventOf s w) (h : s.ShelfOk) : w.st.ShelfOk := by
  have steady (hst : Steady s w.st) : w.st.ShelfOk := shelfOk_congr hst.shelf h
  cases hw with
  | aside v _ hv => exact shelfOk_congr hv.shelf h
  | writePoint | writePanel | scroll => exact h
  | rewritePoint u r =>
    unfold Work.rewritePoint
    dsimp only
    split
    · exact shelfOk_congr (steady_setUser (s.work.onState fun s => s.putPoint u r) u false false).shelf h
    · exact h
  | writeGroup a => exact steady (steady_writeGroup s.work a)
  | writeLine a => exact steady (steady_writeLine s.work a)
  | hostRaise u f => exact steady ((steady_putCond s.work _ true).trans (tableStep_raiseUser _ .link u f).steady)
  | clear u => exact steady (steady_setUser s.work u false true)
  | ackAll scope => exact steady (tableStep_ackAll s.work scope).steady
  | resetAll scope => exact steady (tableStep_resetAll s.work scope).steady
  | silence => exact steady (steady_silenceAll s.work)
  | retire p n => exact steady (tableStep_retire s.work n).steady
  | shelve u m _ hlo hhi hroom => exact shelfOk_shelveFor hlo hhi hroom h
  | unshelve u =>
    exact shelfOk_filter (s := s) _
      (tableStep_returnToView (s.work.onState fun s => s.withShelf (dropEntry u s.shelf)) (UserPt.pt u)).shelf h
  | start => exact shelfOk_congr (start_steady s.work).2.2.1 h
  | stop =>
    rw [State.ShelfOk, shelf_stop]
    exact ⟨Nat.zero_le _, .nil, fun e he => nomatch he⟩
  | supervisionExpiry => exact steady (steady_supervisionExpiry s.work)
  | qualified l => exact steady (steady_qualified s.work l)
  | releaseLine l => exact steady ((steady_markChattering s.work _ _).trans (steady_moveLine _ _ _))
  | shelfExpiry u =>
    exact shelfOk_filter (s := s) _ (tableStep_returnToView
      ((s.work.onState fun s => s.withShelf (dropEntry u s.shelf)).flag .shelfExpiry) (UserPt.pt u)).shelf h
  | realert p n => exact steady (steady_realertExpiry s.work n)
  | ackPress => exact steady ((tableStep_ackAll s.work _).trans (tableStep_flag _ _)).steady
  | silencePress => exact steady ((steady_silenceAll s.work).trans (tableStep_flag _ _).steady)
  | resetPress => exact steady ((tableStep_resetAll s.work _).trans (tableStep_flag _ _)).steady
  | scrollHome =>
    refine shelfOk_congr (s := s) ?_ h
    show s.scrollHome.shelf = s.shelf
    unfold State.scrollHome
    dsimp only
    split <;> rfl

theorem tick_left (c : Countdown) : c.tick.left = if 2 ≤ c.left then c.left - 1 else c.left := by
  rw [Countdown.tick_eq]
  split <;> rfl

/-- R71, R75: a tick keeps the order of expiry. -/
theorem shelfOk_ticked {s : State} (h : s.ShelfOk) : s.ticked.ShelfOk := by
  obtain ⟨hlen, hord, htimes⟩ := h
  show (List.map _ s.shelf).length ≤ _ ∧ (List.map _ s.shelf).Pairwise _ ∧ ∀ e ∈ List.map _ s.shelf, _
  refine ⟨by rw [List.length_map]; exact hlen, List.pairwise_map.2 (hord.imp fun {a b} hab => ⟨hab.1, ?order⟩), fun e he => ?bounds⟩
  case order =>
    have := hab.2
    rw [tick_left, tick_left]
    split <;> split <;> omega
  case bounds =>
    obtain ⟨m, hm, rfl⟩ := List.mem_map.1 he
    have := htimes m hm
    show 1 ≤ m.time.tick.left ∧ m.time.tick.left ≤ 14400
    rw [tick_left]
    split <;> omega

theorem stepTo_shelfOk {s t : State} (h : StepTo s t) (hs : s.ShelfOk) : t.ShelfOk := by
  cases h with
  | aside _ h => exact shelfOk_congr h.shelf hs
  | ticked => exact shelfOk_ticked hs
  | cleared s1 c => exact ⟨Nat.zero_le _, .nil, fun e he => nomatch he⟩
  | event s1 w _ h1 hw ht =>
    exact shelfOk_congr (ht.shelf.trans (settle_shelf _ _)) (shelfOk_event hw (shelfOk_congr h1.shelf hs))
  | transaction k j =>
    exact shelfOk_congr ((settle_shelf _ _).trans (steady_transaction (s.withLink k).work j).shelf) hs

/-! ## The chirp burst -/

/-- R124: the end of an event lets no burst run under a steady pattern. -/
theorem chirpOk_settle (b : State) (w : Work) : (settle b w).ChirpOk := by
  intro h
  rw [settle_steadyPattern]
  rw [settle_chirp, State.chirpAfter] at h
  by_contra hne
  rw [if_pos (Option.isSome_iff_ne_none.2 hne)] at h
  cases h

theorem steadyPattern_congr {s t : State} (hnt : t.nt = s.nt) (hpt : t.pt = s.pt) (hsh : t.shelf = s.shelf)
    (hfloor : t.snd.floor = s.snd.floor) : t.steadyPattern = s.steadyPattern := by
  unfold State.steadyPattern State.soundsAt State.sounding State.withheld State.shelved State.shelfEntry? State.suppressed
    State.parentOf State.ackable State.classOf State.seqOf State.pointRec State.active
  rw [hnt, hpt, hsh, hfloor]

theorem Aside.chirpOk {s t : State} (h : Aside s t) (hs : s.ChirpOk) : t.ChirpOk := fun hc => by
  rw [steadyPattern_congr h.nt h.pt h.shelf h.floor]
  exact hs (h.chirp hc)

theorem stepTo_chirpOk {s t : State} (h : StepTo s t) (hs : s.ChirpOk) : t.ChirpOk := by
  cases h with
  | aside _ h => exact h.chirpOk hs
  | ticked => exact fun hc => ((unseenStep_ticked s).steadyPattern rfl rfl).trans (hs hc)
  | cleared s1 c => exact fun hc => nomatch hc
  | event s1 w _ h1 hw ht => exact ht.chirpOk (chirpOk_settle _ _)
  | transaction k j => exact chirpOk_settle _ _

/-! ## The parents -/

theorem offending_congr {s t : State} (h : t.pt.points = s.pt.points) (u : UserPt) : t.offending u = s.offending u := by
  unfold State.offending State.pointRec
  rw [h]

theorem parentsOk_congr {s t : State} (hm : t.ctl.mode = s.ctl.mode) (hp : t.pt.points = s.pt.points) (h : s.ParentsOk) :
    t.ParentsOk := fun hr u => (offending_congr hp u).trans (h (hm.symm.trans hr) u)

/-- R82: no point offends. -/
theorem offending_of_lowestOffender_none {s : State} (h : s.lowestOffender = none) (u : UserPt) : s.offending u = false := by
  rw [State.lowestOffender, List.find?_eq_none] at h
  simpa using h u (List.mem_finRange u)

/-- R82: a point offends when its parent is itself or has a parent. -/
theorem offending_eq_false_iff (s : State) (u : UserPt) :
    s.offending u = false ↔ ∀ y, (s.pointRec u).parent = some y → y ≠ u ∧ (s.pointRec y).parent = none := by
  unfold State.offending
  cases hp : (s.pointRec u).parent with
  | none => simp
  | some y => simp

/-- R12: a write that passes its check keeps the parent structure. -/
theorem offending_putPoint {s : State} {u : UserPt} {r : PointRec} (h : s.breaksParents u r.parent = false)
    (hs : ∀ v, s.offending v = false) (v : UserPt) : (s.putPoint u r).offending v = false := by
  rw [offending_eq_false_iff]
  intro y hy
  rw [pointRec_putPoint] at hy
  rw [pointRec_putPoint]
  unfold State.breaksParents at h
  split at hy
  · next hv =>
    subst hv
    rw [hy] at h
    simp only [Bool.or_eq_false_iff, decide_eq_false_iff_not, Option.isSome_eq_false_iff, Option.isNone_iff_eq_none] at h
    obtain ⟨⟨hne, hnone⟩, -⟩ := h
    rw [if_neg hne]
    exact ⟨hne, hnone⟩
  · next hv =>
    obtain ⟨hyv, hnone⟩ := (offending_eq_false_iff s v).1 (hs v) y hy
    refine ⟨hyv, ?_⟩
    split
    · next hyu =>
      subst hyu
      cases hr : r.parent with
      | none => rfl
      | some z =>
        rw [hr] at h
        simp only [Bool.or_eq_false_iff, List.any_eq_false] at h
        exact absurd (by simp [hv, hy]) (h.2 v (List.mem_finRange v))
    · exact hnone

theorem parentsOk_event {s : State} {w : Work} (hw : EventOf s w) (h : s.ParentsOk) : w.st.ParentsOk := by
  have steady (hst : Steady s w.st) : w.st.ParentsOk := parentsOk_congr hst.mode hst.points h
  have config (hm : w.st.ctl.mode = .config) : w.st.ParentsOk := fun hr => by rw [hm] at hr; cases hr
  cases hw with
  | aside v _ hv => exact parentsOk_congr hv.mode (by rw [hv.pt]) h
  | writePoint u r hm => exact config hm
  | writePanel | scroll | shelve => exact h
  | rewritePoint u r hm _ hparents =>
    have hput : (s.putPoint u r).ParentsOk := fun _ => offending_putPoint hparents (h hm)
    unfold Work.rewritePoint
    dsimp only
    split
    · have hst := steady_setUser (s.work.onState fun s => s.putPoint u r) u false false
      exact parentsOk_congr hst.mode hst.points hput
    · exact hput
  | writeGroup a => exact steady (steady_writeGroup s.work a)
  | writeLine a => exact steady (steady_writeLine s.work a)
  | hostRaise u f => exact steady ((steady_putCond s.work _ true).trans (tableStep_raiseUser _ .link u f).steady)
  | clear u => exact steady (steady_setUser s.work u false true)
  | ackAll scope => exact steady (tableStep_ackAll s.work scope).steady
  | resetAll scope => exact steady (tableStep_resetAll s.work scope).steady
  | silence => exact steady (steady_silenceAll s.work)
  | retire p n => exact steady (tableStep_retire s.work n).steady
  | unshelve u =>
    have hst := (tableStep_returnToView (s.work.onState fun s => s.withShelf (dropEntry u s.shelf)) (UserPt.pt u)).steady
    exact parentsOk_congr (s := s) hst.mode hst.points h
  | start hm hoff =>
    exact fun _ u => (offending_congr (start_steady s.work).2.1 u).trans (offending_of_lowestOffender_none hoff u)
  | stop => exact config rfl
  | supervisionExpiry => exact steady (steady_supervisionExpiry s.work)
  | qualified l => exact steady (steady_qualified s.work l)
  | releaseLine l => exact steady ((steady_markChattering s.work _ _).trans (steady_moveLine _ _ _))
  | shelfExpiry u =>
    have hst := (tableStep_returnToView ((s.work.onState fun s => s.withShelf (dropEntry u s.shelf)).flag .shelfExpiry)
      (UserPt.pt u)).steady
    exact parentsOk_congr (s := s) hst.mode hst.points h
  | realert p n => exact steady (steady_realertExpiry s.work n)
  | ackPress => exact steady ((tableStep_ackAll s.work _).trans (tableStep_flag _ _)).steady
  | silencePress => exact steady ((steady_silenceAll s.work).trans (tableStep_flag _ _).steady)
  | resetPress => exact steady ((tableStep_resetAll s.work _).trans (tableStep_flag _ _)).steady
  | scrollHome =>
    refine parentsOk_congr (s := s) ?_ ?_ h
    all_goals
      unfold State.scrollHome Work.onState
      dsimp only
      split <;> rfl

theorem stepTo_parentsOk {s t : State} (h : StepTo s t) (hs : s.ParentsOk) : t.ParentsOk := by
  cases h with
  | aside _ h => exact parentsOk_congr h.mode (by rw [h.pt]) hs
  | ticked => exact hs
  | cleared s1 c hc => exact fun hr => by rw [show (s1.cleared.withCtl c).ctl.mode = .config from hc] at hr; cases hr
  | event s1 w _ h1 hw ht =>
    have hs1 : s1.ParentsOk := parentsOk_congr h1.mode (by rw [h1.pt]) hs
    exact parentsOk_congr (ht.mode.trans (by rw [settle_ctl])) (by rw [ht.pt, settle_pt]) (parentsOk_event hw hs1)
  | transaction k j =>
    have hst := steady_transaction (s.withLink k).work j
    exact parentsOk_congr (s := s) (by rw [settle_ctl]; exact hst.mode) (by rw [settle_pt]; exact hst.points) hs

/-- Settles O9: shelving makes room and keeps the order; every end of an event judges the burst; START and WRITE_POINT check. -/
theorem stepKeepsShelfChirpAndParents : Obligations.StepKeepsShelfChirpAndParents := by
  intro s t h
  rcases step_cases h with h | ⟨s0, h0, h⟩
  · exact ⟨shelfOk_congr h.shelf, h.chirpOk, parentsOk_congr h.mode (by rw [h.pt])⟩
  · exact ⟨fun hs => stepTo_shelfOk h (shelfOk_congr h0.shelf hs), fun hs => stepTo_chirpOk h (h0.chirpOk hs),
      fun hs => stepTo_parentsOk h (parentsOk_congr h0.mode (by rw [h0.pt]) hs)⟩

end Sys2Proof.Machine

/-! Where an operation of the table reaches: the points whose record, condition, place in the Pending Set and announcement it may
move; every other point is left as it was (R35 may renumber its record, which `record?` does not read). -/

namespace Sys2Proof.Machine

/-- What every operation at conditions and notices leaves as it was; attention flags are set, none is cleared. -/
structure Framed (a b : State) : Prop where
  pending : b.pending = a.pending
  ctl : b.ctl = a.ctl
  points : b.pt.points = a.pt.points
  group : ∀ g, b.groupRec g = { a.groupRec g with marker := (b.groupRec g).marker }
  shelf : b.shelf = a.shelf
  lq : b.lq = a.lq
  kp : b.kp = a.kp
  snd : b.snd = a.snd
  pres : b.pres = a.pres
  link : ∃ m, b.link = { a.link with flags := a.link.flags ||| m }

/-- The operations that lead from a to b reach the points P alone. -/
structure Touches (P : Pt → Prop) (a b : Work) : Prop where
  frame : Framed a.st b.st
  cond : ∀ q, ¬P q → b.st.active q = a.st.active q
  record : ∀ q, ¬P q → b.st.record? q = a.st.record? q
  pend : ∀ u, ¬P (UserPt.pt u) → (u ∈ b.st.nt.pendSet ↔ u ∈ a.st.nt.pendSet)
  alerts : ∀ q, ¬P q → (q ∈ b.alerts ↔ q ∈ a.alerts)
  chirps : b.chirps = a.chirps
  notify : b.notify = a.notify
  compose : b.compose = a.compose

/-- They assign no arrival number either. -/
structure Alters (P : Pt → Prop) (a b : Work) : Prop extends Touches P a b where
  notice : ∀ q, ¬P q → b.st.notice? q = a.st.notice? q
  arrival : b.st.nt.arrival = a.st.nt.arrival

theorem Framed.refl (a : State) : Framed a a :=
  ⟨rfl, rfl, rfl, fun _ => rfl, rfl, rfl, rfl, rfl, rfl, 0#8, by rw [BitVec.or_zero]⟩

theorem Framed.trans {a b c : State} (h : Framed a b) (k : Framed b c) : Framed a c := by
  obtain ⟨m, hm⟩ := h.link
  obtain ⟨m', hm'⟩ := k.link
  refine ⟨k.pending.trans h.pending, k.ctl.trans h.ctl, k.points.trans h.points, fun g => by rw [k.group g, h.group g],
    k.shelf.trans h.shelf, k.lq.trans h.lq, k.kp.trans h.kp, k.snd.trans h.snd, k.pres.trans h.pres, m ||| m', ?_⟩
  rw [hm', hm, BitVec.or_assoc]

theorem Touches.refl (P : Pt → Prop) (a : Work) : Touches P a a :=
  ⟨.refl _, fun _ _ => rfl, fun _ _ => rfl, fun _ _ => .rfl, fun _ _ => .rfl, rfl, rfl, rfl⟩

theorem Alters.refl (P : Pt → Prop) (a : Work) : Alters P a a := ⟨.refl P a, fun _ _ => rfl, rfl⟩

theorem Touches.trans {P : Pt → Prop} {a b c : Work} (h : Touches P a b) (k : Touches P b c) : Touches P a c :=
  ⟨h.frame.trans k.frame, fun q hq => (k.cond q hq).trans (h.cond q hq), fun q hq => (k.record q hq).trans (h.record q hq),
    fun u hu => (k.pend u hu).trans (h.pend u hu), fun q hq => (k.alerts q hq).trans (h.alerts q hq),
    k.chirps.trans h.chirps, k.notify.trans h.notify, k.compose.trans h.compose⟩

theorem Alters.trans {P : Pt → Prop} {a b c : Work} (h : Alters P a b) (k : Alters P b c) : Alters P a c :=
  ⟨h.toTouches.trans k.toTouches, fun q hq => (k.notice q hq).trans (h.notice q hq), k.arrival.trans h.arrival⟩

theorem Touches.mono {P Q : Pt → Prop} {a b : Work} (h : Touches P a b) (hPQ : ∀ q, P q → Q q) : Touches Q a b :=
  ⟨h.frame, fun q hq => h.cond q (mt (hPQ q) hq), fun q hq => h.record q (mt (hPQ q) hq),
    fun u hu => h.pend u (mt (hPQ _) hu), fun q hq => h.alerts q (mt (hPQ q) hq), h.chirps, h.notify, h.compose⟩

theorem Alters.mono {P Q : Pt → Prop} {a b : Work} (h : Alters P a b) (hPQ : ∀ q, P q → Q q) : Alters Q a b :=
  ⟨h.toTouches.mono hPQ, fun q hq => h.notice q (mt (hPQ q) hq), h.arrival⟩

/-- Where no number is assigned, it is enough to know the notices. -/
theorem Alters.of {P : Pt → Prop} {a b : Work} (frame : Framed a.st b.st) (cond : ∀ q, ¬P q → b.st.active q = a.st.active q)
    (notice : ∀ q, ¬P q → b.st.notice? q = a.st.notice? q)
    (pend : ∀ u, ¬P (UserPt.pt u) → (u ∈ b.st.nt.pendSet ↔ u ∈ a.st.nt.pendSet))
    (alerts : ∀ q, ¬P q → (q ∈ b.alerts ↔ q ∈ a.alerts)) (arrival : b.st.nt.arrival = a.st.nt.arrival)
    (chirps : b.chirps = a.chirps) (notify : b.notify = a.notify) (compose : b.compose = a.compose) : Alters P a b :=
  ⟨⟨frame, cond, fun q hq => record?_eq_of_notice?_eq (notice q hq), pend, alerts, chirps, notify, compose⟩, notice, arrival⟩

/-! ## The bricks -/

/-- A change of the records alone. -/
theorem framed_onNt (w : Work) (f : NoticeTable → NoticeTable) : Framed w.st (w.onNt f).st :=
  ⟨rfl, rfl, rfl, fun _ => rfl, rfl, rfl, rfl, rfl, rfl, 0#8, by rw [BitVec.or_zero]; rfl⟩

theorem alters_change (w : Work) (p : Pt) {f : Notice → Notice} (hf : ∀ n, (f n).point = n.point) :
    Alters (· = p) w (w.change p f) :=
  .of (framed_onNt _ _) (fun _ _ => rfl) (fun q hq => by rw [notice?_change w p hf, if_neg hq]) (fun _ _ => .rfl)
    (fun _ _ => .rfl) rfl rfl rfl rfl

theorem alters_flag (P : Pt → Prop) (w : Work) (e : AttnEvent) : Alters P w (w.flag e) :=
  .of ⟨rfl, rfl, rfl, fun _ => rfl, rfl, rfl, rfl, rfl, rfl, e.mask, rfl⟩ (fun _ _ => rfl) (fun _ _ => rfl) (fun _ _ => .rfl)
    (fun _ _ => .rfl) rfl rfl rfl rfl

theorem alters_alertShown (w : Work) (p : Pt) : Alters (· = p) w (w.alertShown p) :=
  .of ⟨rfl, rfl, rfl, fun _ => rfl, rfl, rfl, rfl, rfl, rfl, AttnEvent.newAlert.mask, rfl⟩ (fun _ _ => rfl) (fun _ _ => rfl)
    (fun _ _ => .rfl) (fun q hq => by rw [Work.alertShown_eq]; simp [hq]) rfl rfl rfl rfl

theorem framed_of_tableStep {a b : State} (h : TableStep a b) (hm : ∃ m, b.link.flags = a.link.flags ||| m) : Framed a b := by
  obtain ⟨m, hm⟩ := hm
  exact ⟨h.pending, h.ctl, h.points, h.group, h.shelf, h.lq, h.kp, h.snd, h.pres, m, by rw [← hm]; exact h.link⟩

theorem framed_setMarker (w : Work) (g : GroupNo) (m : Option UserPt) : Framed w.st (w.setMarker g m).st :=
  framed_of_tableStep (tableStep_setMarker w g m) ⟨0#8, BitVec.or_zero.symm⟩

theorem alters_setMarker (P : Pt → Prop) (w : Work) (g : GroupNo) (m : Option UserPt) : Alters P w (w.setMarker g m) :=
  .of (framed_setMarker w g m) (fun _ _ => rfl) (fun _ _ => rfl) (fun _ _ => .rfl) (fun _ _ => .rfl) rfl rfl rfl rfl

theorem alters_dropMarker (P : Pt → Prop) (w : Work) (n : Notice) : Alters P w (w.dropMarker n) := by
  unfold Work.dropMarker
  split
  · exact alters_setMarker P w _ _
  · exact .refl P w

theorem framed_putCond (w : Work) (p : Pt) (v : Bool) : Framed w.st (w.putCond p v).st :=
  ⟨rfl, rfl, rfl, fun _ => rfl, rfl, rfl, rfl, rfl, rfl, 0#8, by rw [BitVec.or_zero]; rfl⟩

theorem alters_putCond (w : Work) (p : Pt) (v : Bool) : Alters (· = p) w (w.putCond p v) :=
  .of (framed_putCond w p v) (fun q hq => by rw [active_putCond, if_neg hq]) (fun _ _ => rfl) (fun _ _ => .rfl)
    (fun _ _ => .rfl) rfl rfl rfl rfl

/-! ## Creation, re-raise, removal -/

theorem AttnEvent.flags_or_maskIf (e : AttnEvent) (b : Prop) [Decidable b] (f : Byte) :
    f ||| e.maskIf b = if b then f ||| e.mask else f := by
  unfold AttnEvent.maskIf
  split
  · rfl
  · exact BitVec.or_zero

/-- R24: the records after a creation. -/
theorem record?_create {w : Work} {p : Pt} (h : w.st.notice? p = none) (kind : RaiseKind) (phase : Phase) (field : NoticeField)
    (q : Pt) :
    (w.create kind p phase field).st.record? q =
      if q = p then some (w.st.newNotice kind p phase field).timeless else w.st.record? q := by
  rw [Work.create_eq]
  exact noticeAt_created_timeless (t := w.st.nt) (n := w.st.newNotice kind p phase field) h q

theorem touches_create {w : Work} {p : Pt} (h : w.st.notice? p = none) (kind : RaiseKind) (phase : Phase) (field : NoticeField) :
    Touches (· = p) w (w.create kind p phase field) := by
  have heq := Work.create_eq w kind p phase field
  have hframe : Framed w.st (w.create kind p phase field).st :=
    framed_of_tableStep (tableStep_create w kind p phase field) ⟨_, by rw [heq]; rfl⟩
  refine ⟨hframe, fun q _ => by rw [heq]; rfl, fun q hq => by rw [record?_create h, if_neg hq], fun u _ => ?_, fun q hq => ?_,
    by rw [heq], by rw [heq], by rw [heq]⟩
  · rw [heq]
    exact (NoticeTable.created_pendSet w.st.nt _) ▸ Iff.rfl
  · rw [heq]
    dsimp only
    split
    · simp [hq]
    · rfl

/-- R25: the records after a re-raise. -/
theorem record?_reRaise (w : Work) (kind : RaiseKind) (n : Notice) (field : NoticeField) (q : Pt) :
    (w.reRaise kind n field).st.record? q =
      if q = n.point then
        (w.st.notice? n.point).map fun m =>
          { m with
            phase := .alert, count := min 255 (m.count + 1), arrival := 0, silenced := false, realert := none,
            firstOut := m.firstOut || w.st.grantsFirstOut kind n.point, field := if kind = .link then field else m.field,
            rev := w.st.nt.rev + 1 }
      else w.st.record? q := by
  rw [Work.reRaise_eq]
  exact noticeAt_reRaised_timeless w.st.nt kind n.point _ field q

theorem touches_reRaise (w : Work) (kind : RaiseKind) (n : Notice) (field : NoticeField) :
    Touches (· = n.point) w (w.reRaise kind n field) := by
  have heq := Work.reRaise_eq w kind n field
  have hframe : Framed w.st (w.reRaise kind n field).st :=
    framed_of_tableStep (tableStep_reRaise w kind n field) ⟨_, by rw [heq]; rfl⟩
  refine ⟨hframe, fun q _ => by rw [heq]; rfl, fun q hq => by rw [record?_reRaise, if_neg hq], fun u _ => ?_, fun q hq => ?_,
    by rw [heq], by rw [heq], by rw [heq]⟩
  · rw [heq]
    exact (NoticeTable.reRaised_pendSet w.st.nt kind n.point _ field) ▸ Iff.rfl
  · rw [heq]
    simp [hq]

theorem alters_refresh (w : Work) (kind : RaiseKind) (n : Notice) (field : NoticeField) :
    Alters (· = n.point) w (w.refresh kind n field) := by
  unfold Work.refresh
  split
  · exact alters_change w _ fun _ => rfl
  · exact .refl _ w

theorem touches_raiseNotice (w : Work) (kind : RaiseKind) (p : Pt) (field : NoticeField) :
    Touches (· = p) w (w.raiseNotice kind p field) := by
  unfold Work.raiseNotice
  split
  · next h => exact touches_create h kind _ field
  · next n hn =>
    obtain ⟨-, hp⟩ := notice?_some hn
    subst hp
    split
    · exact (alters_refresh w kind n field).toTouches
    · exact (alters_refresh w kind n field).toTouches
    · exact touches_reRaise w kind n field
    · exact touches_reRaise w kind n field

/-- R30: the notices after a removal. -/
theorem notice?_remove (w : Work) (n : Notice) (announce : Bool) (q : Pt) :
    (w.remove n announce).st.notice? q = if q = n.point then none else w.st.notice? q := by
  rw [Work.remove_eq]
  exact noticeAt_removed w.st.nt n.point q

theorem alters_remove (w : Work) (n : Notice) (announce : Bool) : Alters (· = n.point) w (w.remove n announce) := by
  have heq := Work.remove_eq w n announce
  have hframe : Framed w.st (w.remove n announce).st :=
    framed_of_tableStep (tableStep_remove w n announce) ⟨_, by rw [heq]; rfl⟩
  exact .of hframe (fun q _ => by rw [heq]; rfl) (fun q hq => by rw [notice?_remove, if_neg hq]) (fun u _ => by rw [heq]; exact .rfl)
    (fun q _ => by rw [heq]) (by rw [heq]; rfl) (by rw [heq]) (by rw [heq]) (by rw [heq])

/-! ## System points -/

theorem alters_clearSystem (w : Work) (p : Pt) : Alters (· = p) w (w.clearSystem p) := by
  unfold Work.clearSystem
  split
  · exact .refl _ w
  · next n hn =>
    obtain ⟨-, hp⟩ := notice?_some hn
    split
    · exact alters_change w p fun _ => rfl
    · subst hp; exact alters_remove w n true
    · exact .refl _ w
    · exact .refl _ w

theorem alters_setSystem_clear (w : Work) (p : Pt) : Alters (· = p) w (w.setSystem p false) := by
  unfold Work.setSystem
  split
  · exact .refl _ w
  · dsimp only
    split
    · exact (alters_putCond w p false).trans (alters_clearSystem _ p)
    · exact alters_putCond w p false

theorem touches_setSystem (w : Work) (p : Pt) (v : Bool) : Touches (· = p) w (w.setSystem p v) := by
  cases v with
  | false => exact (alters_setSystem_clear w p).toTouches
  | true =>
    unfold Work.setSystem
    split
    · exact .refl _ w
    · dsimp only
      split
      · exact (alters_putCond w p true).toTouches.trans (touches_raiseNotice _ .system p .none)
      · exact (alters_putCond w p true).toTouches

/-! ## The Pending Set -/

theorem touches_pend (w : Work) (u : UserPt) : Touches (fun q => q = UserPt.pt u ∨ q = panelOverflow) w (w.pend u) := by
  have hadd : Touches (fun q => q = UserPt.pt u ∨ q = panelOverflow) w
      (w.onNt fun t => { t with pendSet := insertPoint u t.pendSet }) := by
    refine ⟨framed_onNt _ _, fun _ _ => rfl, fun _ _ => rfl, fun v hv => ?_, fun _ _ => .rfl, rfl, rfl, rfl⟩
    show v ∈ insertPoint u w.st.nt.pendSet ↔ _
    rw [mem_insertPoint]
    exact or_iff_right fun he => hv (.inl (by rw [he]))
  unfold Work.pend
  dsimp only
  split
  · exact (hadd.trans ((touches_setSystem _ panelOverflow true).mono fun q hq => .inr hq)).trans (alters_flag _ _ _).toTouches
  · exact hadd

/-- The members of the Pending Set, as points. -/
def State.Waits (s : State) (q : Pt) : Prop := ∃ u ∈ s.nt.pendSet, q = UserPt.pt u

/-- Members that leave the Pending Set take their own place alone with them. -/
theorem alters_filterPend (w : Work) (keep : UserPt → Bool) :
    Alters (fun q => ∃ u, keep u = false ∧ q = UserPt.pt u) w
      (w.onNt fun t => { t with pendSet := t.pendSet.filter keep }) := by
  refine .of (framed_onNt _ _) (fun _ _ => rfl) (fun _ _ => rfl) (fun u hu => ?_) (fun _ _ => .rfl) rfl rfl rfl rfl
  show u ∈ w.st.nt.pendSet.filter keep ↔ _
  rw [List.mem_filter]
  refine and_iff_left ?_
  by_contra hk
  exact hu ⟨u, by simpa using hk, rfl⟩

theorem alters_withdraw (w : Work) (gone : UserPt → Bool) :
    Alters (fun q => q = panelOverflow ∨ ∃ u, gone u = true ∧ q = UserPt.pt u) w (w.withdraw gone) := by
  have hleave := (alters_filterPend w fun u => !gone u).mono
    (Q := fun q => q = panelOverflow ∨ ∃ u, gone u = true ∧ q = UserPt.pt u)
    (by rintro q ⟨u, hu, hq⟩; exact .inr ⟨u, by simpa using hu, hq⟩)
  unfold Work.withdraw
  split
  · dsimp only
    split
    · exact hleave.trans ((alters_setSystem_clear _ panelOverflow).mono fun q hq => .inl hq)
    · exact hleave
  · exact .refl _ w

/-- R63: the Pending Set after members left it. -/
theorem pendSet_withdraw (w : Work) (gone : UserPt → Bool) :
    (w.withdraw gone).st.nt.pendSet = w.st.nt.pendSet.filter fun u => !gone u := by
  unfold Work.withdraw
  split
  · dsimp only
    split
    · exact (setSystem_keeps _ panelOverflow false).2
    · rfl
  · next h =>
    symm
    rw [List.filter_eq_self]
    intro u hu
    simp only [List.any_eq_true, not_exists, not_and, Bool.not_eq_true] at h
    simp [h u hu]

/-- R64, R66: the work that admits a member u of the Pending Set. -/
def Work.letIn (w : Work) (u : UserPt) : Work :=
  (w.onNt fun t => { t with pendSet := t.pendSet.filter fun v => v ≠ u }).create .admission (UserPt.pt u) (w.st.admissionPhase u) .none

theorem offerRecord_none {w : Work} (h : w.st.arbiterPick = none) : w.offerRecord = w := by
  rw [Work.offerRecord, h]

theorem offerRecord_some {w : Work} {u : UserPt} (h : w.st.arbiterPick = some u) :
    w.offerRecord =
      if (w.letIn u).st.nt.pendSet = [] then (w.letIn u).setSystem panelOverflow false else w.letIn u := by
  rw [Work.offerRecord, h]
  rfl

/-- No pending point has a notice, as R60 has it. -/
def State.PendApart (s : State) : Prop := ∀ u ∈ s.nt.pendSet, s.notice? (UserPt.pt u) = none

theorem touches_letIn {w : Work} {u : UserPt} (h : w.st.notice? (UserPt.pt u) = none) :
    Touches (· = UserPt.pt u) w (w.letIn u) :=
  ((alters_filterPend w fun v => decide (v ≠ u)).toTouches.mono (by
    rintro q ⟨v, hv, hq⟩
    have : v = u := by simpa using hv
    rw [hq, this])).trans (touches_create (w := w.onNt fun t => { t with pendSet := t.pendSet.filter fun v => v ≠ u }) h .admission _ .none)

theorem pendSet_letIn (w : Work) (u : UserPt) : (w.letIn u).st.nt.pendSet = w.st.nt.pendSet.filter fun v => v ≠ u := by
  rw [Work.letIn, Work.create_eq]
  exact NoticeTable.created_pendSet _ _

theorem mem_of_arbiterPick {s : State} {u : UserPt} (hp : s.nt.pendSet.Pairwise (· < ·)) (h : s.arbiterPick = some u) :
    u ∈ s.nt.pendSet := (State.arbiterPick_spec hp h).1

theorem touches_offerRecord {w : Work} (hp : w.st.nt.pendSet.Pairwise (· < ·)) (ha : w.st.PendApart) :
    Touches (fun q => q = panelOverflow ∨ w.st.Waits q) w w.offerRecord := by
  cases h : w.st.arbiterPick with
  | none => rw [offerRecord_none h]; exact .refl _ w
  | some u =>
    have hu := mem_of_arbiterPick hp h
    have hlet := (touches_letIn (ha u hu)).mono (Q := fun q => q = panelOverflow ∨ w.st.Waits q) fun q hq => .inr ⟨u, hu, hq⟩
    rw [offerRecord_some h]
    split
    · exact hlet.trans ((touches_setSystem _ _ _).mono fun q hq => .inl hq)
    · exact hlet

theorem pendSet_offerRecord (w : Work) :
    w.offerRecord.st.nt.pendSet =
      match w.st.arbiterPick with
      | none => w.st.nt.pendSet
      | some u => w.st.nt.pendSet.filter fun v => v ≠ u := by
  cases h : w.st.arbiterPick with
  | none => rw [offerRecord_none h]
  | some u =>
    rw [offerRecord_some h]
    dsimp only
    split
    · rw [(setSystem_keeps _ _ _).2, pendSet_letIn]
    · exact pendSet_letIn w u

/-- The points that one operation at point p can reach, with the admission that a retirement brings. -/
def State.Reach (s : State) (p q : Pt) : Prop := q = p ∨ q = panelOverflow ∨ s.Waits q

theorem State.TableOk.pendAscending {s : State} (h : s.TableOk) : s.nt.pendSet.Pairwise (· < ·) := h.2.1
theorem State.TableOk.pendApart {s : State} (h : s.TableOk) : s.PendApart := h.2.2.2.1
theorem State.TableOk.capacity {s : State} (h : s.TableOk) : s.userCount ≤ Config.userRecords := h.2.2.1
theorem State.TableOk.overflow {s : State} (h : s.TableOk) : s.active panelOverflow = true ↔ s.nt.pendSet ≠ [] := h.2.2.2.2.2
theorem State.TableOk.filled {s : State} (h : s.TableOk) (hne : s.nt.pendSet ≠ []) : s.userCount = Config.userRecords := h.2.2.2.2.1 hne

/-- R24: in a table by points, a live notice is the one a lookup of its point finds. -/
theorem State.TableOk.notice?_of_mem {s : State} (h : s.TableOk) {n : Notice} (hn : n ∈ s.nt.notices) : s.notice? n.point = some n := by
  cases hl : s.notice? n.point with
  | none => exact absurd rfl (notice?_none.1 hl n hn)
  | some m =>
    obtain ⟨hm, hp⟩ := notice?_some hl
    have hnodup : (s.nt.notices.map (·.point)).Nodup := List.pairwise_map.2 (h.1.imp ne_of_lt)
    rw [List.inj_on_of_nodup_map hnodup hm hn hp]

theorem pendSet_remove (w : Work) (n : Notice) (b : Bool) : (w.remove n b).st.nt.pendSet = w.st.nt.pendSet := by
  rw [Work.remove_eq]; rfl

theorem pendApart_remove {w : Work} (h : w.st.PendApart) (n : Notice) (b : Bool) : (w.remove n b).st.PendApart := by
  intro u hu
  rw [pendSet_remove] at hu
  rw [notice?_remove]
  split
  · rfl
  · exact h u hu

theorem touches_retire {w : Work} (h : w.st.TableOk) (n : Notice) : Touches (w.st.Reach n.point) w (w.retire n) := by
  have hgone := (alters_remove w n true).toTouches.mono (Q := w.st.Reach n.point) fun q hq => .inl hq
  unfold Work.retire
  dsimp only
  split
  · refine hgone.trans ((touches_offerRecord (by rw [pendSet_remove]; exact h.pendAscending)
      (pendApart_remove h.pendApart n true)).mono ?_)
    rintro q (hq | ⟨u, hu, hq⟩)
    · exact .inr (.inl hq)
    · rw [pendSet_remove] at hu
      exact .inr (.inr ⟨u, hu, hq⟩)
  · exact hgone

/-- R64: a retirement that admits nobody. -/
theorem retire_still {w : Work} {n : Notice} (h : userOf n.point = none ∨ w.st.nt.pendSet = []) : w.retire n = w.remove n true := by
  unfold Work.retire
  dsimp only
  split
  · next hu =>
    rcases h with h | h
    · rw [h] at hu; cases hu
    · exact offerRecord_none ((State.arbiterPick_eq_none_iff _).2 (by rw [pendSet_remove]; exact h))
  · rfl

/-- The Pending Set only loses members. -/
def Shrinks (a b : Work) : Prop := ∀ u ∈ b.st.nt.pendSet, u ∈ a.st.nt.pendSet

theorem shrinks_retire (w : Work) (n : Notice) : Shrinks w (w.retire n) := by
  intro u hu
  unfold Work.retire at hu
  dsimp only at hu
  split at hu
  · rw [pendSet_offerRecord, pendSet_remove] at hu
    split at hu
    · exact hu
    · exact (List.mem_filter.1 hu).1
  · rwa [pendSet_remove] at hu

theorem shrinks_of_pendSet_eq {a b : Work} (h : b.st.nt.pendSet = a.st.nt.pendSet) : Shrinks a b := fun u hu => by rwa [h] at hu

/-! ## Raises, clears, acks, resets -/

theorem touches_raiseUser (w : Work) (kind : RaiseKind) (u : UserPt) (f : NoticeField) :
    Touches (fun q => q = UserPt.pt u ∨ q = panelOverflow) w (w.raiseUser kind u f) := by
  unfold Work.raiseUser
  split
  · exact touches_pend w u
  · exact (touches_raiseNotice w kind _ f).mono fun q hq => .inl hq

theorem touches_clearUser {w : Work} (h : w.st.TableOk) (u : UserPt) : Touches (w.st.Reach (UserPt.pt u)) w (w.clearUser u) := by
  unfold Work.clearUser
  split
  · split
    · refine (alters_withdraw w _).toTouches.mono ?_
      rintro q (hq | ⟨v, hv, hq⟩)
      · exact .inr (.inl hq)
      · exact .inl (by rw [hq, of_decide_eq_true hv])
    · exact .refl _ w
  · next n hn =>
    obtain ⟨-, hp⟩ := notice?_some hn
    have hchange {f : Notice → Notice} (hf : ∀ n, (f n).point = n.point) :=
      (alters_change w n.point hf).toTouches.mono (Q := w.st.Reach n.point) fun q hq => .inl hq
    rw [← hp]
    split
    · exact touches_retire h n
    · split
      · exact hchange fun _ => rfl
      · split
        · exact touches_retire h n
        · exact hchange fun _ => rfl
      · exact .refl _ w
      · exact .refl _ w

theorem alters_acked (w : Work) (n : Notice) (phase : Phase) : Alters (· = n.point) w (w.acked n phase) :=
  (alters_dropMarker _ w n).trans (alters_change _ n.point fun _ => rfl)

theorem touches_ack {w : Work} (h : w.st.TableOk) (p : Pt) : Touches (w.st.Reach p) w (w.ack p) := by
  unfold Work.ack
  split
  · exact .refl _ w
  · next n hn =>
    obtain ⟨-, hp⟩ := notice?_some hn
    have hacked (phase : Phase) := (alters_acked w n phase).toTouches.mono (Q := w.st.Reach n.point) fun q hq => .inl hq
    rw [← hp]
    split
    · exact .refl _ w
    · split
      · exact hacked _
      · exact .refl _ w
      · split
        · exact hacked _
        · exact touches_retire h n
      · split
        · exact touches_retire h n
        · exact .refl _ w

theorem touches_resetAt {w : Work} (h : w.st.TableOk) (p : Pt) : Touches (w.st.Reach p) w (w.resetAt p) := by
  unfold Work.resetAt
  split
  · exact .refl _ w
  · next n hn =>
    obtain ⟨-, hp⟩ := notice?_some hn
    rw [← hp]
    split
    · exact touches_retire h n
    · exact .refl _ w

theorem touches_retireAt {w : Work} (h : w.st.TableOk) (p : Pt) : Touches (w.st.Reach p) w (w.retireAt p) := by
  unfold Work.retireAt
  split
  · next n hn =>
    obtain ⟨-, hp⟩ := notice?_some hn
    rw [← hp]
    exact touches_retire h n
  · exact .refl _ w

theorem pendSet_acked (w : Work) (n : Notice) (phase : Phase) : (w.acked n phase).st.nt.pendSet = w.st.nt.pendSet := by
  show (w.dropMarker n).st.nt.pendSet = _
  rw [Work.dropMarker_eq]
  rfl

theorem shrinks_ack (w : Work) (p : Pt) : Shrinks w (w.ack p) := by
  unfold Work.ack
  split
  · exact fun u hu => hu
  · next n hn =>
    split
    · exact fun u hu => hu
    · split
      · exact shrinks_of_pendSet_eq (pendSet_acked w n _)
      · exact fun u hu => hu
      · split
        · exact shrinks_of_pendSet_eq (pendSet_acked w n _)
        · exact shrinks_retire w n
      · split
        · exact shrinks_retire w n
        · exact fun u hu => hu

theorem shrinks_resetAt (w : Work) (p : Pt) : Shrinks w (w.resetAt p) := by
  unfold Work.resetAt
  split
  · exact fun u hu => hu
  · split
    · exact shrinks_retire w _
    · exact fun u hu => hu

theorem shrinks_retireAt (w : Work) (p : Pt) : Shrinks w (w.retireAt p) := by
  unfold Work.retireAt
  split
  · exact shrinks_retire w _
  · exact fun u hu => hu

/-! ## Stale, chattering, silence, return to view -/

theorem alters_setStale (v : Bool) (w : Work) (p : Pt) : Alters (· = p) w (w.setStale v p) := by
  unfold Work.setStale
  split
  · split
    · exact .refl _ w
    · exact alters_change w p fun _ => rfl
  · exact .refl _ w

theorem alters_setChattering (v : Bool) (w : Work) (p : Pt) : Alters (· = p) w (w.setChattering v p) := by
  unfold Work.setChattering
  split
  · split
    · exact .refl _ w
    · exact alters_change w p fun _ => rfl
  · exact .refl _ w

theorem alters_silenceAt (w : Work) (p : Pt) : Alters (· = p) w (w.silenceAt p) := alters_change w p fun _ => rfl

theorem alters_reannounce (w : Work) (p : Pt) : Alters (· = p) w (w.reannounce p) := by
  unfold Work.reannounce
  split
  · exact .refl _ w
  · next n hn =>
    split
    · dsimp only
      have hloud : Alters (· = p) w
          (if n.silenced = true then w.change p fun m => { m with silenced := false, realert := none } else w) := by
        split
        · exact alters_change w p fun _ => rfl
        · exact .refl _ w
      split
      · exact hloud.trans (alters_alertShown _ p)
      · exact hloud.trans (alters_flag _ _ _)
    · exact .refl _ w

theorem alters_returnToView (w : Work) (p : Pt) : Alters (· = p) w (w.returnToView p) := by
  unfold Work.returnToView
  split
  · exact .refl _ w
  · exact alters_reannounce w p

/-! ## Many operations, one after another -/

/-- Operations that each reach one point reach the points of their list. -/
theorem alters_foldl {f : Work → Pt → Work} (hf : ∀ w p, Alters (· = p) w (f w p)) (l : List Pt) :
    ∀ w, Alters (· ∈ l) w (l.foldl f w) := by
  induction l with
  | nil => exact fun w => .refl _ w
  | cons p rest ih =>
    intro w
    exact ((hf w p).mono fun q hq => by rw [hq]; exact List.mem_cons_self).trans
      ((ih (f w p)).mono fun q hq => List.mem_cons_of_mem p hq)

/-- Retirements bring admissions: beside its list, a chain of them reaches point 129 and the points that wait at its start. -/
theorem touches_foldl {f : Work → Pt → Work} (hok : ∀ w p, w.st.TableOk → (f w p).st.TableOk)
    (hf : ∀ w p, w.st.TableOk → Touches (w.st.Reach p) w (f w p)) (hs : ∀ w p, Shrinks w (f w p)) (l : List Pt) :
    ∀ w, w.st.TableOk →
      Touches (fun q => q ∈ l ∨ q = panelOverflow ∨ w.st.Waits q) w (l.foldl f w) ∧ Shrinks w (l.foldl f w) := by
  induction l with
  | nil => exact fun w _ => ⟨.refl _ w, fun u hu => hu⟩
  | cons p rest ih =>
    intro w hw
    obtain ⟨htouch, hshrink⟩ := ih (f w p) (hok w p hw)
    refine ⟨((hf w p hw).mono ?_).trans (htouch.mono ?_), fun u hu => hs w p u (hshrink u hu)⟩
    · rintro q (hq | hq)
      · exact .inl (by rw [hq]; exact List.mem_cons_self)
      · exact .inr hq
    · rintro q (hq | hq | ⟨u, hu, hq⟩)
      · exact .inl (List.mem_cons_of_mem p hq)
      · exact .inr (.inl hq)
      · exact .inr (.inr ⟨u, hs w p u hu, hq⟩)

end Sys2Proof.Machine

/-! Condition consistency in every step (R16, R26, R62): the condition of a live notice says its phase, and only points of enabled
groups have notices or wait. -/

namespace Sys2Proof.Machine

/-- The phase of a point's live notice. -/
def State.phase? (s : State) (q : Pt) : Option Phase := (s.notice? q).map (·.phase)

theorem State.phase?_eq_record? (s : State) (q : Pt) : s.phase? q = (s.record? q).map (·.phase) := by
  rw [State.phase?, State.record?, Option.map_map]
  rfl

theorem State.phase?_of_notice? {s : State} {q : Pt} {n : Notice} (h : s.notice? q = some n) : s.phase? q = some n.phase := by
  rw [State.phase?, h]
  rfl

/-- R26: the phases of a notice whose condition is ACTIVE. -/
def Phase.holds (ph : Phase) : Bool := decide (ph = .alert) || decide (ph = .standing)

/-- The group of a point, if it has one, is enabled. -/
def State.Served (s : State) (q : Pt) : Prop := ∀ g, s.groupOf q = some g → (s.groupRec g).enabled = true

/-- The notice of a point, if it has one, agrees with its condition, and its group is enabled. -/
def State.NoticeFits (s : State) (q : Pt) : Prop := ∀ ph, s.phase? q = some ph → s.active q = ph.holds ∧ s.Served q

/-- A user point that waits is of an enabled group, and an INDICATION among them is ACTIVE. -/
def State.PendFits (s : State) (u : UserPt) : Prop :=
  u ∈ s.nt.pendSet → s.Served (UserPt.pt u) ∧ ((s.pointRec u).cls = .indication → s.active (UserPt.pt u) = true)

/-- Both hold of every point but those of P. -/
structure State.FitsBut (s : State) (P : Pt → Prop) : Prop where
  notice : ∀ q, ¬P q → s.NoticeFits q
  pend : ∀ u, ¬P (UserPt.pt u) → s.PendFits u

/-- Both hold of every point. -/
abbrev State.Fits (s : State) : Prop := s.FitsBut fun _ => False

theorem served_pt (s : State) (u : UserPt) : s.Served (UserPt.pt u) ↔ s.groupEnabled u = true := by
  unfold State.Served
  rw [groupOf_pt]
  constructor
  · intro h
    exact h _ rfl
  · rintro h g ⟨⟩
    exact h

theorem served_system (s : State) {p : Pt} (h : userOf p = none) : s.Served p := by
  intro g hg
  rw [groupOf_of_userOf_none s h] at hg
  cases hg

theorem noticeFits_of_none {s : State} {q : Pt} (h : s.notice? q = none) : s.NoticeFits q := by
  intro ph hph
  rw [State.phase?, h] at hph
  cases hph

theorem noticeFits_of_some {s : State} {q : Pt} {n : Notice} (h : s.notice? q = some n) (ha : s.active q = n.phase.holds)
    (hs : s.Served q) : s.NoticeFits q := by
  intro ph hph
  rw [State.phase?_of_notice? h] at hph
  cases hph
  exact ⟨ha, hs⟩

theorem State.NoticeFits.of_notice? {s : State} {q : Pt} {n : Notice} (h : s.NoticeFits q) (hn : s.notice? q = some n) :
    s.active q = n.phase.holds ∧ s.Served q := h _ (State.phase?_of_notice? hn)

theorem pendFits_of_not_mem {s : State} {u : UserPt} (h : u ∉ s.nt.pendSet) : s.PendFits u := fun hu => absurd hu h

/-- R26, R16, R62: the state's law, point by point. -/
theorem serviceOk_iff {s : State} (h : s.TableOk) : s.ServiceOk ↔ s.Fits := by
  constructor
  · rintro ⟨hphase, hgroup, hpend⟩
    refine ⟨fun q _ ph hph => ?_, fun u _ hu => ?_⟩
    · obtain ⟨n, hn, rfl⟩ := Option.map_eq_some_iff.1 hph
      obtain ⟨hmem, rfl⟩ := notice?_some hn
      exact ⟨hphase n hmem, hgroup n hmem⟩
    · exact ⟨(served_pt s u).2 (hpend u hu).1, (hpend u hu).2⟩
  · rintro ⟨hnotice, hpend⟩
    refine ⟨fun n hn => ?_, fun n hn => ?_, fun u hu => ?_⟩
    · exact ((hnotice n.point not_false).of_notice? (h.notice?_of_mem hn)).1
    · exact ((hnotice n.point not_false).of_notice? (h.notice?_of_mem hn)).2
    · exact ⟨(served_pt s u).1 (hpend u not_false hu).1, (hpend u not_false hu).2⟩

/-! ## What an operation leaves -/

theorem pointRec_framed {a b : State} (h : Framed a b) (u : UserPt) : b.pointRec u = a.pointRec u := by
  rw [State.pointRec, h.points]; rfl

theorem groupOf_framed {a b : State} (h : Framed a b) (q : Pt) : b.groupOf q = a.groupOf q := by
  simp only [State.groupOf, pointRec_framed h]

theorem served_framed {a b : State} (h : Framed a b) (q : Pt) : b.Served q ↔ a.Served q := by
  unfold State.Served
  simp only [groupOf_framed h]
  constructor <;> intro hs g hg
  · have := hs g hg
    rw [h.group g] at this
    exact this
  · rw [h.group g]
    exact hs g hg

theorem Touches.phase? {P : Pt → Prop} {a b : Work} (h : Touches P a b) {q : Pt} (hq : ¬P q) : b.st.phase? q = a.st.phase? q := by
  rw [State.phase?_eq_record?, State.phase?_eq_record?, h.record q hq]

theorem noticeFits_congr {s t : State} {q : Pt} (hph : t.phase? q = s.phase? q) (ha : t.active q = s.active q)
    (hs : s.Served q → t.Served q) (h : s.NoticeFits q) : t.NoticeFits q := by
  intro ph hq
  rw [hph] at hq
  obtain ⟨h1, h2⟩ := h ph hq
  exact ⟨ha.trans h1, hs h2⟩

theorem pendFits_congr {s t : State} {u : UserPt} (hm : u ∈ t.nt.pendSet → u ∈ s.nt.pendSet)
    (hrec : t.pointRec u = s.pointRec u) (ha : t.active (UserPt.pt u) = s.active (UserPt.pt u))
    (hs : s.Served (UserPt.pt u) → t.Served (UserPt.pt u)) (h : s.PendFits u) : t.PendFits u := by
  intro hu
  obtain ⟨h1, h2⟩ := h (hm hu)
  exact ⟨hs h1, by rw [hrec, ha]; exact h2⟩

theorem State.FitsBut.mono {s : State} {P Q : Pt → Prop} (h : s.FitsBut P) (hPQ : ∀ q, P q → Q q) : s.FitsBut Q :=
  ⟨fun q hq => h.notice q (mt (hPQ q) hq), fun u hu => h.pend u (mt (hPQ _) hu)⟩

/-- An operation has to be judged at the points that it reaches alone. -/
theorem State.FitsBut.touch {a b : Work} {P Q R : Pt → Prop} (h : a.st.FitsBut P) (ht : Touches Q a b)
    (hPR : ∀ q, ¬R q → ¬Q q → ¬P q) (hn : ∀ q, Q q → ¬R q → b.st.NoticeFits q)
    (hp : ∀ u, Q (UserPt.pt u) → ¬R (UserPt.pt u) → b.st.PendFits u) : b.st.FitsBut R := by
  refine ⟨fun q hq => ?_, fun u hu => ?_⟩
  · by_cases hQ : Q q
    · exact hn q hQ hq
    · exact noticeFits_congr (ht.phase? hQ) (ht.cond q hQ) (served_framed ht.frame q).2 (h.notice q (hPR q hq hQ))
  · by_cases hQ : Q (UserPt.pt u)
    · exact hp u hQ hu
    · exact pendFits_congr (ht.pend u hQ).1 (pointRec_framed ht.frame u) (ht.cond _ hQ) (served_framed ht.frame _).2
        (h.pend u (hPR _ hu hQ))

/-- The point that an operation puts right is an exception no more. -/
theorem State.FitsBut.mend {a b : Work} {P : Pt → Prop} {p : Pt} (h : a.st.FitsBut P) (ht : Touches (· = p) a b)
    (hn : b.st.NoticeFits p) (hp : ∀ u, UserPt.pt u = p → b.st.PendFits u) : b.st.FitsBut fun q => P q ∧ q ≠ p :=
  h.touch ht (fun _ hR hQ hP => hR ⟨hP, hQ⟩) (fun q hQ _ => by rw [hQ]; exact hn) (fun u hQ _ => hp u hQ)

theorem State.FitsBut.mend' {a b : Work} {P : Pt → Prop} {p : Pt} (h : a.st.FitsBut P) (ht : Touches (· = p) a b)
    (hn : b.st.NoticeFits p) (hp : ∀ u, UserPt.pt u = p → b.st.PendFits u) : b.st.FitsBut P :=
  (h.mend ht hn hp).mono fun _ hq => hq.1

/-- A change of the records that keeps every phase. -/
theorem fits_of_phases {a b : Work} {P Q : Pt → Prop} (h : a.st.FitsBut P) (ht : Touches Q a b)
    (hphase : ∀ q, b.st.phase? q = a.st.phase? q) (hcond : ∀ q, b.st.active q = a.st.active q)
    (hpend : b.st.nt.pendSet = a.st.nt.pendSet) : b.st.FitsBut P :=
  ⟨fun q hq => noticeFits_congr (hphase q) (hcond q) (served_framed ht.frame q).2 (h.notice q hq),
    fun u hu => pendFits_congr (by rw [hpend]; exact id) (pointRec_framed ht.frame u) (hcond _) (served_framed ht.frame _).2
      (h.pend u hu)⟩

theorem phase?_change (w : Work) (p : Pt) {f : Notice → Notice} (hf : ∀ n, (f n).point = n.point)
    (hphase : ∀ n, (f n).phase = n.phase) (q : Pt) : (w.change p f).st.phase? q = w.st.phase? q := by
  rw [State.phase?, State.phase?, notice?_change w p hf]
  split
  · next h =>
    subst h
    rw [Option.map_map]
    exact congrArg (Option.map · _) (funext hphase)
  · rfl

theorem fits_change {w : Work} {P : Pt → Prop} (h : w.st.FitsBut P) (p : Pt) {f : Notice → Notice}
    (hf : ∀ n, (f n).point = n.point) (hphase : ∀ n, (f n).phase = n.phase) : (w.change p f).st.FitsBut P :=
  fits_of_phases h (alters_change w p hf).toTouches (phase?_change w p hf hphase) (fun _ => rfl) rfl

theorem fits_flag {w : Work} {P : Pt → Prop} (h : w.st.FitsBut P) (e : AttnEvent) : (w.flag e).st.FitsBut P :=
  fits_of_phases h (alters_flag (fun _ => False) w e).toTouches (fun _ => rfl) (fun _ => rfl) rfl

theorem fits_setMarker {w : Work} {P : Pt → Prop} (h : w.st.FitsBut P) (g : GroupNo) (m : Option UserPt) :
    (w.setMarker g m).st.FitsBut P :=
  fits_of_phases h (alters_setMarker (fun _ => False) w g m).toTouches (fun _ => rfl) (fun _ => rfl) rfl

/-! ## Raises and system points -/

theorem active_create (w : Work) (kind : RaiseKind) (p : Pt) (phase : Phase) (f : NoticeField) (q : Pt) :
    (w.create kind p phase f).st.active q = w.st.active q := by
  rw [Work.create_eq]; rfl

theorem active_raiseNotice (w : Work) (kind : RaiseKind) (p : Pt) (f : NoticeField) (q : Pt) :
    (w.raiseNotice kind p f).st.active q = w.st.active q := by
  rw [State.active, (raiseNotice_keeps w kind p f).1]; rfl

/-- R24, R25: after a raise the notice of its point is in ALERT or STANDING. -/
theorem phase?_raiseNotice (w : Work) (kind : RaiseKind) (p : Pt) (f : NoticeField) :
    ∃ ph, (w.raiseNotice kind p f).st.phase? p = some ph ∧ ph.holds = true := by
  unfold Work.raiseNotice
  split
  · next hn =>
    refine ⟨(w.st.classOf p).raisedPhase, ?_, ?_⟩
    · rw [State.phase?_eq_record?, record?_create hn, if_pos rfl]; rfl
    · unfold PointClass.raisedPhase; split <;> rfl
  · next n hn =>
    have hpt := (notice?_some hn).2
    have hrefresh : (w.refresh kind n f).st.phase? p = some n.phase := by
      unfold Work.refresh
      split
      · rw [phase?_change w _ (by exact fun _ => rfl) (by exact fun _ => rfl), State.phase?_of_notice? hn]
      · exact State.phase?_of_notice? hn
    have hreRaise : (w.reRaise kind n f).st.phase? p = some .alert := by
      rw [State.phase?_eq_record?, record?_reRaise, if_pos hpt.symm, hpt, hn]
      rfl
    split
    · next hph => exact ⟨_, hrefresh, by rw [hph]; rfl⟩
    · next hph => exact ⟨_, hrefresh, by rw [hph]; rfl⟩
    · exact ⟨_, hreRaise, rfl⟩
    · exact ⟨_, hreRaise, rfl⟩

theorem noticeFits_raiseNotice {w : Work} {p : Pt} (ha : w.st.active p = true) (hs : w.st.Served p) (kind : RaiseKind)
    (f : NoticeField) : (w.raiseNotice kind p f).st.NoticeFits p := by
  intro ph hph
  obtain ⟨ph', hph', hholds⟩ := phase?_raiseNotice w kind p f
  rw [hph] at hph'
  cases hph'
  exact ⟨by rw [active_raiseNotice, ha, hholds], (served_framed (touches_raiseNotice w kind p f).frame p).2 hs⟩

/-- R26, R68: after a clear the notice of a system point, if it stands, is in FLEETING or RETURNED. -/
theorem noticeFits_clearSystem {w : Work} {p : Pt} (hp : userOf p = none) (ha : w.st.active p = false) :
    (w.clearSystem p).st.NoticeFits p := by
  have hactive : (w.clearSystem p).st.active p = false := by
    rw [State.active, (clearSystem_keeps w p).1]; exact ha
  have hserved := served_system (w.clearSystem p).st hp
  cases hn : w.st.notice? p with
  | none =>
    have heq : w.clearSystem p = w := by rw [Work.clearSystem, hn]
    rw [heq]
    exact noticeFits_of_none hn
  | some n =>
    have hpt := (notice?_some hn).2
    cases hph : n.phase with
    | alert =>
      have heq : w.clearSystem p = w.change p fun m => { m with phase := .fleeting } := by
        rw [Work.clearSystem, hn]; dsimp only; rw [hph]
      rw [heq] at hactive hserved ⊢
      refine noticeFits_of_some (n := { n with phase := .fleeting, rev := w.st.nt.rev + 1 }) ?_ hactive hserved
      rw [notice?_change w p (by exact fun _ => rfl), if_pos rfl, hn]
      rfl
    | standing =>
      have heq : w.clearSystem p = w.remove n true := by
        rw [Work.clearSystem, hn]; dsimp only; rw [hph]
      rw [heq]
      exact noticeFits_of_none (by rw [notice?_remove, if_pos hpt.symm])
    | fleeting | returned =>
      have heq : w.clearSystem p = w := by
        rw [Work.clearSystem, hn]; dsimp only; rw [hph]
      rw [heq] at hactive hserved ⊢
      exact noticeFits_of_some hn (by rw [hactive, hph]; rfl) hserved

/-- R5, R6: in RUN the condition of a system point takes its notice along. -/
theorem noticeFits_setSystem {w : Work} (hr : w.st.ctl.mode = .run) {p : Pt} (hp : userOf p = none) (v : Bool)
    (h : w.st.NoticeFits p) : (w.setSystem p v).st.NoticeFits p := by
  unfold Work.setSystem
  split
  · exact h
  · have hdelivers : (w.putCond p v).st.delivers p = true := by
      rw [State.delivers, groupOf_of_userOf_none _ hp, show (w.putCond p v).st.ctl.mode = .run from hr]
      rfl
    have hactive : (w.putCond p v).st.active p = v := by rw [active_putCond, if_pos rfl]
    dsimp only
    rw [if_pos hdelivers]
    split
    · next hv => exact noticeFits_raiseNotice (hactive.trans hv) (served_system _ hp) .system .none
    · next hv => exact noticeFits_clearSystem hp (by rw [hactive]; simpa using hv)

theorem fits_setSystem {w : Work} {P : Pt → Prop} (hr : w.st.ctl.mode = .run) {p : Pt} (hp : userOf p = none) (hP : ¬P p) (v : Bool)
    (h : w.st.FitsBut P) : (w.setSystem p v).st.FitsBut P :=
  h.mend' (touches_setSystem w p v) (noticeFits_setSystem hr hp v (h.notice p hP))
    fun u hu => absurd hu (pt_ne_of_userOf_none hp u)

/-! ## The Pending Set and retirement -/

theorem fits_filterPend {w : Work} {P : Pt → Prop} (h : w.st.FitsBut P) (keep : UserPt → Bool) :
    (w.onNt fun t => { t with pendSet := t.pendSet.filter keep }).st.FitsBut P :=
  ⟨fun q hq => noticeFits_congr rfl rfl id (h.notice q hq),
    fun u hu => pendFits_congr (fun hm => (List.mem_filter.1 hm).1) rfl rfl id (h.pend u hu)⟩

theorem fits_withdraw {w : Work} {P : Pt → Prop} (hr : w.st.ctl.mode = .run) (hP : ¬P panelOverflow) (h : w.st.FitsBut P)
    (gone : UserPt → Bool) : (w.withdraw gone).st.FitsBut P := by
  have hleft := fits_filterPend h fun u => !gone u
  unfold Work.withdraw
  split
  · dsimp only
    split
    · exact fits_setSystem (w := w.onNt fun t => { t with pendSet := t.pendSet.filter fun u => !gone u }) hr rfl hP false hleft
    · exact hleft
  · exact h

theorem fits_pend {w : Work} {P : Pt → Prop} (hr : w.st.ctl.mode = .run) (hP : ¬P panelOverflow) {u : UserPt}
    (hn : w.st.notice? (UserPt.pt u) = none) (ha : w.st.active (UserPt.pt u) = true) (hs : w.st.Served (UserPt.pt u))
    (h : w.st.FitsBut P) : (w.pend u).st.FitsBut fun q => P q ∧ q ≠ UserPt.pt u := by
  have hadded : (w.onNt fun t => { t with pendSet := insertPoint u t.pendSet }).st.FitsBut fun q => P q ∧ q ≠ UserPt.pt u := by
    refine ⟨fun q hq => noticeFits_congr rfl rfl id ?_, fun v hv hm => ?_⟩
    · by_cases he : q = UserPt.pt u
      · rw [he]; exact noticeFits_of_none hn
      · exact h.notice q fun hp => hq ⟨hp, he⟩
    · by_cases he : v = u
      · subst he; exact ⟨hs, fun _ => ha⟩
      · have hm' : v ∈ w.st.nt.pendSet := ((mem_insertPoint u v _).1 hm).resolve_left he
        exact h.pend v (fun hp => hv ⟨hp, fun hpt => he (pt_inj.1 hpt)⟩) hm'
  unfold Work.pend
  dsimp only
  split
  · exact fits_flag (fits_setSystem (w := w.onNt fun t => { t with pendSet := insertPoint u t.pendSet }) hr rfl
      (fun hp => hP hp.1) true hadded) _
  · exact hadded

/-- R66: an admission takes a waiting point to the phase of its condition. -/
theorem fits_letIn {w : Work} {P : Pt → Prop} {u : UserPt} (hn : w.st.notice? (UserPt.pt u) = none) (hu : u ∈ w.st.nt.pendSet)
    (hP : ¬P (UserPt.pt u)) (h : w.st.FitsBut P) : (w.letIn u).st.FitsBut P := by
  obtain ⟨hs, hind⟩ := h.pend u hP hu
  have hrec : (w.letIn u).st.phase? (UserPt.pt u) = some (w.st.admissionPhase u) := by
    rw [State.phase?_eq_record?, Work.letIn, record?_create
      (w := w.onNt fun t => { t with pendSet := t.pendSet.filter fun v => v ≠ u }) hn, if_pos rfl]
    rfl
  have hactive : (w.letIn u).st.active (UserPt.pt u) = w.st.active (UserPt.pt u) := active_create _ _ _ _ _ _
  refine h.mend' (touches_letIn hn) (fun ph hph => ?_) (fun v hv => ?_)
  · rw [hrec] at hph
    cases hph
    refine ⟨?_, (served_framed (touches_letIn hn).frame _).2 hs⟩
    rw [hactive, State.admissionPhase]
    split
    · next hc => rw [hind hc]; rfl
    · split
      · next ha => rw [ha]; rfl
      · next ha => rw [Bool.not_eq_true] at ha; rw [ha]; rfl
  · rw [pt_inj.1 hv]
    refine pendFits_of_not_mem ?_
    rw [pendSet_letIn]
    simp

theorem ctl_letIn (w : Work) (u : UserPt) : (w.letIn u).st.ctl = w.st.ctl :=
  (tableStep_create (w.onNt fun t => { t with pendSet := t.pendSet.filter fun v => v ≠ u }) .admission (UserPt.pt u)
    (w.st.admissionPhase u) .none).ctl

theorem fits_offerRecord {w : Work} {P : Pt → Prop} (hr : w.st.ctl.mode = .run) (hasc : w.st.nt.pendSet.Pairwise (· < ·))
    (hapart : w.st.PendApart) (hP : ¬P panelOverflow) (hW : ∀ u ∈ w.st.nt.pendSet, ¬P (UserPt.pt u)) (h : w.st.FitsBut P) :
    w.offerRecord.st.FitsBut P := by
  cases hpick : w.st.arbiterPick with
  | none => rw [offerRecord_none hpick]; exact h
  | some u =>
    have hu := mem_of_arbiterPick hasc hpick
    have hlet := fits_letIn (hapart u hu) hu (hW u hu) h
    rw [offerRecord_some hpick]
    split
    · exact fits_setSystem ((congrArg Control.mode (ctl_letIn w u)).trans hr) rfl hP false hlet
    · exact hlet

/-- R24, R60: a live point does not wait. -/
theorem not_mem_pendSet_of_notice? {s : State} (h : s.PendApart) {u : UserPt} {n : Notice} (hn : s.notice? (UserPt.pt u) = some n) :
    u ∉ s.nt.pendSet := fun hu => by
  rw [h u hu] at hn
  cases hn

/-- R30, R64: a retirement ends the exception of its point. -/
theorem fits_retire {w : Work} {P : Pt → Prop} (hr : w.st.ctl.mode = .run) (hok : w.st.TableOk) {n : Notice}
    (hn : w.st.notice? n.point = some n) (hP : ¬P panelOverflow) (hW : ∀ u ∈ w.st.nt.pendSet, ¬P (UserPt.pt u)) (h : w.st.FitsBut P) :
    (w.retire n).st.FitsBut fun q => P q ∧ q ≠ n.point := by
  have hgone := h.mend (alters_remove w n true).toTouches
    (noticeFits_of_none (by rw [notice?_remove, if_pos rfl])) (fun u hu => pendFits_of_not_mem (by
      rw [pendSet_remove]
      rw [← hu] at hn
      exact not_mem_pendSet_of_notice? hok.pendApart hn))
  unfold Work.retire
  dsimp only
  split
  · refine fits_offerRecord ((congrArg Control.mode (tableStep_remove w n true).ctl).trans hr)
      (by rw [pendSet_remove]; exact hok.pendAscending) (pendApart_remove hok.pendApart n true) (fun hp => hP hp.1)
      (fun u hu => ?_) hgone
    rw [pendSet_remove] at hu
    exact fun hp => hW u hu hp.1
  · exact hgone

theorem fits_retire' {w : Work} (hr : w.st.ctl.mode = .run) (hok : w.st.TableOk) {n : Notice}
    (hn : w.st.notice? n.point = some n) (h : w.st.Fits) : (w.retire n).st.Fits :=
  (fits_retire hr hok hn not_false (fun _ _ => not_false) h).mono fun _ hq => hq.1

/-! ## User points -/

theorem fits_raiseUser {w : Work} {P : Pt → Prop} (hr : w.st.ctl.mode = .run) (hP : ¬P panelOverflow) {u : UserPt}
    (ha : w.st.active (UserPt.pt u) = true) (hs : w.st.Served (UserPt.pt u)) (h : w.st.FitsBut P) (kind : RaiseKind)
    (f : NoticeField) : (w.raiseUser kind u f).st.FitsBut fun q => P q ∧ q ≠ UserPt.pt u := by
  unfold Work.raiseUser
  split
  · next hfull =>
    simp only [Bool.and_eq_true, Option.isNone_iff_eq_none] at hfull
    exact fits_pend hr hP hfull.1 ha hs h
  · refine h.mend (touches_raiseNotice w kind _ f) (noticeFits_raiseNotice ha hs kind f) fun v hv hm => ?_
    rw [pt_inj.1 hv]
    exact ⟨(served_framed (touches_raiseNotice w kind _ f).frame _).2 hs, fun _ => by rw [active_raiseNotice]; exact ha⟩

/-- A clear of a user point whose condition is CLEAR puts its notice right, and its place in the Pending Set. -/
theorem fits_clearUser {w : Work} (hr : w.st.ctl.mode = .run) (hok : w.st.TableOk) {u : UserPt}
    (ha : w.st.active (UserPt.pt u) = false) (hs : w.st.Served (UserPt.pt u)) (h : w.st.FitsBut (· = UserPt.pt u)) :
    (w.clearUser u).st.Fits := by
  have mended {b : Work} (hb : b.st.FitsBut fun q => q = UserPt.pt u ∧ q ≠ UserPt.pt u) : b.st.Fits :=
    hb.mono fun q hq => hq.2 hq.1
  cases hn : w.st.notice? (UserPt.pt u) with
  | none =>
    have hnone := noticeFits_of_none hn
    by_cases hc : (w.st.pointRec u).cls = .indication
    · have heq : w.clearUser u = w.withdraw fun v => v = u := by
        rw [Work.clearUser, hn]; exact if_pos hc
      rw [heq]
      have hleft := fits_withdraw hr (fun hp => (pt_ne_panelOverflow u) hp.symm) h fun v => decide (v = u)
      have hstill : (w.withdraw fun v => decide (v = u)).st.notice? (UserPt.pt u) = none := by
        unfold Work.withdraw
        split
        · dsimp only
          split
          · exact ((alters_setSystem_clear _ panelOverflow).notice _ (pt_ne_panelOverflow u)).trans hn
          · exact hn
        · exact hn
      refine ⟨fun q _ => ?_, fun v _ => ?_⟩
      · by_cases hq : q = UserPt.pt u
        · rw [hq]; exact noticeFits_of_none hstill
        · exact hleft.notice q hq
      · by_cases hv : v = u
        · exact pendFits_of_not_mem (by rw [pendSet_withdraw, hv]; simp)
        · exact hleft.pend v fun hp => hv (pt_inj.1 hp)
    · have heq : w.clearUser u = w := by
        rw [Work.clearUser, hn]; exact if_neg hc
      rw [heq]
      refine ⟨fun q _ => ?_, fun v _ => ?_⟩
      · by_cases hq : q = UserPt.pt u
        · rw [hq]; exact hnone
        · exact h.notice q hq
      · by_cases hv : v = u
        · subst hv; exact fun _ => ⟨hs, fun hi => absurd hi hc⟩
        · exact h.pend v fun hp => hv (pt_inj.1 hp)
  | some n =>
    obtain ⟨-, hpt⟩ := notice?_some hn
    have hn' : w.st.notice? n.point = some n := by rw [hpt]; exact hn
    have hnot := not_mem_pendSet_of_notice? hok.pendApart hn
    have hretire : (w.retire n).st.Fits := by
      refine mended ?_
      rw [← hpt] at h ⊢
      refine fits_retire hr hok hn' (fun hp => ?_) (fun v hv hp => ?_) h
      · rw [hpt] at hp; exact pt_ne_panelOverflow u hp.symm
      · rw [hpt, pt_inj] at hp
        exact hnot (hp ▸ hv)
    have hmoved (ph : Phase) (hholds : ph.holds = false) : (w.change n.point fun m => { m with phase := ph }).st.Fits := by
      refine mended (h.mend (by rw [hpt]; exact (alters_change w _ (by exact fun _ => rfl)).toTouches) ?_ fun v hv =>
        pendFits_of_not_mem (by rw [pt_inj.1 hv]; exact hnot))
      refine noticeFits_of_some (n := { n with phase := ph, rev := w.st.nt.rev + 1 }) ?_ (ha.trans hholds.symm) hs
      rw [notice?_change w n.point (by exact fun _ => rfl), if_pos hpt.symm, hn']
      rfl
    have hstands (hholds : n.phase.holds = false) : w.st.Fits := by
      refine ⟨fun q _ => ?_, fun v _ => ?_⟩
      · by_cases hq : q = UserPt.pt u
        · rw [hq]; exact noticeFits_of_some hn (ha.trans hholds.symm) hs
        · exact h.notice q hq
      · by_cases hv : v = u
        · rw [hv]; exact pendFits_of_not_mem hnot
        · exact h.pend v fun hp => hv (pt_inj.1 hp)
    unfold Work.clearUser
    rw [hn]
    dsimp only
    split
    · exact hretire
    · split
      · exact hmoved _ rfl
      · split
        · exact hretire
        · exact hmoved _ rfl
      · next hph => exact hstands (by rw [hph]; rfl)
      · next hph => exact hstands (by rw [hph]; rfl)

theorem fits_returnToView {w : Work} {P : Pt → Prop} (h : w.st.FitsBut P) (p : Pt) : (w.returnToView p).st.FitsBut P := by
  obtain ⟨hnt, hpt⟩ := nt_returnToView w p
  have hphase (q : Pt) : (w.returnToView p).st.phase? q = w.st.phase? q := by
    rw [State.phase?, State.notice?_eq, hnt]
    split
    · rfl
    · split
      · exact phase?_change w p (f := fun m => { m with silenced := false, realert := none }) (fun _ => rfl) (fun _ => rfl) q
      · rfl
  refine fits_of_phases h (alters_returnToView w p).toTouches hphase (fun q => by rw [State.active, hpt]; rfl) ?_
  rw [hnt]
  split
  · rfl
  · split <;> rfl

theorem fits_foldl {α : Type} {f : Work → α → Work} {P : Pt → Prop} (hf : ∀ w x, w.st.FitsBut P → (f w x).st.FitsBut P)
    (l : List α) {w : Work} (h : w.st.FitsBut P) : (l.foldl f w).st.FitsBut P :=
  foldl_keeps (P := fun w => w.st.FitsBut P) hf l h

/-- R5, R6, R26, R81: a condition that moves takes its notice and its place in the Pending Set along, if the group is enabled; a
disabled group has neither. -/
theorem fits_setUser {w : Work} (hr : w.st.ctl.mode = .run) (hok : w.st.TableOk) (u : UserPt) (v edge : Bool)
    (hedge : edge = true ∨ (w.st.notice? (UserPt.pt u) = none ∧ u ∉ w.st.nt.pendSet)) (h : w.st.Fits) :
    (w.setUser u v edge).st.Fits := by
  by_cases hv : w.st.active (UserPt.pt u) = v
  · rw [setUser_same w u v edge hv]; exact h
  have hbut : (w.putCond (UserPt.pt u) v).st.FitsBut (· = UserPt.pt u) :=
    h.touch (alters_putCond w _ v).toTouches (fun _ _ _ => not_false) (fun q hq hR => absurd hq hR) fun v hq hR => absurd hq hR
  have hactive : (w.putCond (UserPt.pt u) v).st.active (UserPt.pt u) = v := by rw [active_putCond, if_pos rfl]
  have hedged : ((w.putCond (UserPt.pt u) v).edged u v edge).st.Fits := by
    unfold Work.edged
    by_cases hd : (edge && (w.putCond (UserPt.pt u) v).st.delivers (UserPt.pt u)) = true
    · rw [if_pos hd]
      obtain ⟨-, hdelivers⟩ := Bool.and_eq_true_iff.1 hd
      have hserved : (w.putCond (UserPt.pt u) v).st.Served (UserPt.pt u) := by
        rw [served_pt]
        rw [State.delivers, groupOf_pt] at hdelivers
        exact (Bool.and_eq_true_iff.1 hdelivers).2
      split
      · next hv' =>
        exact (fits_raiseUser (w := w.putCond (UserPt.pt u) v) hr (fun hp => pt_ne_panelOverflow u hp.symm) (hactive.trans hv') hserved hbut .line .none).mono
          fun q hq => hq.2 hq.1
      · next hv' => exact fits_clearUser (w := w.putCond (UserPt.pt u) v) hr (tableOk_putCond hok u v) (by rw [hactive]; simpa using hv') hserved hbut
    · rw [if_neg hd]
      have hout : w.st.notice? (UserPt.pt u) = none ∧ u ∉ w.st.nt.pendSet := by
        rcases hedge with rfl | hout
        · have hdisabled : ¬w.st.Served (UserPt.pt u) := by
            intro hs
            refine hd ?_
            rw [served_pt] at hs
            rw [Bool.true_and, State.delivers, groupOf_pt, show (w.putCond (UserPt.pt u) v).st.ctl.mode = .run from hr]
            exact hs
          constructor
          · cases hn : w.st.notice? (UserPt.pt u) with
            | none => rfl
            | some n => exact absurd ((h.notice _ not_false).of_notice? hn).2 hdisabled
          · exact fun hm => hdisabled (h.pend u not_false hm).1
        · exact hout
      refine ⟨fun q _ => ?_, fun x _ => ?_⟩
      · by_cases hq : q = UserPt.pt u
        · rw [hq]; exact noticeFits_of_none (s := (w.putCond (UserPt.pt u) v).st) hout.1
        · exact hbut.notice q hq
      · by_cases hx : x = u
        · rw [hx]; exact pendFits_of_not_mem (s := (w.putCond (UserPt.pt u) v).st) hout.2
        · exact hbut.pend x fun hp => hx (pt_inj.1 hp)
  rw [setUser_changes hv, if_pos hr]
  exact fits_foldl (fun w p h => fits_returnToView h p) _ hedged

/-! ## Acks and resets -/

theorem fits_acked {w : Work} (hok : w.st.TableOk) {n : Notice} (hn : w.st.notice? n.point = some n) {phase : Phase}
    (hphase : phase.holds = n.phase.holds) (h : w.st.Fits) : (w.acked n phase).st.Fits := by
  have hframe := (alters_acked w n phase).frame
  obtain ⟨ha, hs⟩ := (h.notice n.point not_false).of_notice? hn
  have hdrop : (w.dropMarker n).st.notice? n.point = some n := by
    rw [Work.dropMarker_eq]; exact hn
  have hactive : (w.acked n phase).st.active n.point = w.st.active n.point := by
    show (w.dropMarker n).st.active n.point = _
    rw [Work.dropMarker_eq]; rfl
  refine h.mend' (alters_acked w n phase).toTouches (noticeFits_of_some
    (n := { n with phase := phase, firstOut := false, silenced := false, realert := none, rev := (w.dropMarker n).st.nt.rev + 1 })
    ?_ (by rw [hactive, ha, hphase]) ((served_framed hframe _).2 hs)) fun u hu => pendFits_of_not_mem ?_
  · rw [Work.acked, notice?_change _ n.point (by exact fun _ => rfl), if_pos rfl, hdrop]
    rfl
  · rw [pendSet_acked]
    rw [← hu] at hn
    exact not_mem_pendSet_of_notice? hok.pendApart hn

theorem fits_ack {w : Work} (hr : w.st.ctl.mode = .run) (hok : w.st.TableOk) (h : w.st.Fits) (p : Pt) : (w.ack p).st.Fits := by
  unfold Work.ack
  split
  · exact h
  · next n hn =>
    have hn' : w.st.notice? n.point = some n := by rw [(notice?_some hn).2]; exact hn
    split
    · exact h
    · split
      · next hph => exact fits_acked hok hn' (by rw [hph]; rfl) h
      · exact h
      · split
        · next hph _ => exact fits_acked hok hn' (by rw [hph]; rfl) h
        · exact fits_retire' hr hok hn' h
      · split
        · exact fits_retire' hr hok hn' h
        · exact h

theorem fits_resetAt {w : Work} (hr : w.st.ctl.mode = .run) (hok : w.st.TableOk) (h : w.st.Fits) (p : Pt) : (w.resetAt p).st.Fits := by
  unfold Work.resetAt
  split
  · exact h
  · next n hn =>
    split
    · exact fits_retire' hr hok (by rw [(notice?_some hn).2]; exact hn) h
    · exact h

/-- The three laws of the table in RUN, together: what a chain of operations carries. -/
structure Serving (w : Work) : Prop where
  run : w.st.ctl.mode = .run
  table : w.st.TableOk
  fits : w.st.Fits

theorem serving_ackAll {w : Work} (h : Serving w) (scope : List Pt) : Serving (w.ackAll scope) :=
  foldl_keeps (P := Serving) (fun w p h => ⟨(congrArg Control.mode (tableStep_ack w p).ctl).trans h.run, tableOk_ack h.table p,
    fits_ack h.run h.table h.fits p⟩) scope h

theorem serving_resetAll {w : Work} (h : Serving w) (scope : List Pt) : Serving (w.resetAll scope) :=
  foldl_keeps (P := Serving) (fun w p h => ⟨(congrArg Control.mode (tableStep_resetAt w p).ctl).trans h.run,
    tableOk_resetAt h.table p, fits_resetAt h.run h.table h.fits p⟩) scope h

end Sys2Proof.Machine

/-! Condition consistency in the events, and in every step. -/

namespace Sys2Proof.Machine

/-- The law reads the phases, the Pending Set and the Point Table alone. -/
theorem fits_congr {s t : State} {P : Pt → Prop} (hphase : ∀ q, t.phase? q = s.phase? q) (hpend : t.nt.pendSet = s.nt.pendSet)
    (hpt : t.pt = s.pt) (h : s.FitsBut P) : t.FitsBut P := by
  have hserved (q : Pt) : s.Served q → t.Served q := by
    unfold State.Served State.groupOf State.groupRec State.pointRec
    rw [hpt]
    exact id
  exact ⟨fun q hq => noticeFits_congr (hphase q) (by rw [State.active, hpt]; rfl) (hserved q) (h.notice q hq),
    fun u hu => pendFits_congr (by rw [hpend]; exact id) (by rw [State.pointRec, hpt]; rfl) (by rw [State.active, hpt]; rfl)
      (hserved _) (h.pend u hu)⟩

theorem fits_nt_pt {s t : State} {P : Pt → Prop} (hnt : t.nt = s.nt) (hpt : t.pt = s.pt) (h : s.FitsBut P) : t.FitsBut P :=
  fits_congr (fun q => by rw [State.phase?, State.notice?, hnt]; rfl) (by rw [hnt]) hpt h

/-- The phases after a change of every record. -/
theorem phase?_map {s t : State} {f : Notice → Notice} (ht : t.nt.notices = s.nt.notices.map f) (hf : ∀ n, (f n).point = n.point)
    (hphase : ∀ n, (f n).phase = n.phase) (q : Pt) : t.phase? q = s.phase? q := by
  rw [State.phase?, State.notice?_eq, ht, noticeAt_map hf, Option.map_map]
  exact congrArg (Option.map · _) (funext hphase)

theorem fits_setStale {w : Work} {P : Pt → Prop} (h : w.st.FitsBut P) (v : Bool) (p : Pt) : (w.setStale v p).st.FitsBut P := by
  unfold Work.setStale
  split
  · split
    · exact h
    · exact fits_change h p (fun _ => rfl) fun _ => rfl
  · exact h

theorem fits_markChattering {w : Work} {P : Pt → Prop} (h : w.st.FitsBut P) (b : Option UserPt) (v : Bool) :
    (w.markChattering b v).st.FitsBut P := by
  unfold Work.markChattering
  split
  · unfold Work.setChattering
    split
    · split
      · exact h
      · exact fits_change h _ (fun _ => rfl) fun _ => rfl
    · exact h
  · exact h

theorem fits_silenceAll {w : Work} {P : Pt → Prop} (h : w.st.FitsBut P) : w.silenceAll.st.FitsBut P :=
  fits_nt_pt (s := (w.st.soundingScope.foldl Work.silenceAt w).st) rfl rfl
    (fits_foldl (f := Work.silenceAt) (fun _ p h => fits_change h p (fun _ => rfl) fun _ => rfl) _ h)

theorem fits_moveLine {w : Work} (hr : w.st.ctl.mode = .run) (hok : w.st.TableOk) (h : w.st.Fits) (l : LineNo) (r : LineRec) :
    (w.moveLine l r).st.Fits := by
  have hput : (w.onState fun s => s.putLine l r).st.Fits := fits_nt_pt (s := w.st) rfl rfl h
  unfold Work.moveLine
  dsimp only
  split
  · split
    · exact hput
    · exact fits_setUser (w := w.onState fun s => s.putLine l r) hr (hok.congr rfl rfl rfl) _ _ true (.inl rfl) hput
  · exact hput

theorem fits_qualified {w : Work} (hr : w.st.ctl.mode = .run) (hok : w.st.TableOk) (h : w.st.Fits) (l : LineNo) :
    (w.qualified l).st.Fits := by
  unfold Work.qualified
  dsimp only
  split
  · split
    · exact fits_flag (fits_moveLine ((steady_markChattering w _ true).mode.trans hr) (tableOk_markChattering hok _ true)
        (fits_markChattering h _ true) _ _) _
    · exact fits_moveLine hr hok h _ _
  · exact fits_moveLine hr hok h _ _
  · exact h
  · exact h

theorem fits_hostReturn {w : Work} (hr : w.st.ctl.mode = .run) (h : w.st.Fits) : w.hostReturn.st.Fits :=
  fits_foldl (fun _ p h => fits_setStale h false p) _ (fits_setSystem hr rfl not_false false h)

theorem fits_restartSupervision {w : Work} (hr : w.st.ctl.mode = .run) (h : w.st.Fits) : w.restartSupervision.st.Fits := by
  unfold Work.restartSupervision
  split
  · exact h
  · exact fits_nt_pt (s := w.st) rfl rfl h
  · exact fits_nt_pt (s := w.hostReturn.st) rfl rfl (fits_hostReturn hr h)

theorem fits_transaction {w : Work} (hr : w.st.ctl.mode = .run) (h : w.st.Fits) (j : Judgement) : (w.transaction j).st.Fits := by
  have hjudged : (w.onState fun s => s.withLink (s.link.judged j)).st.Fits := fits_nt_pt (s := w.st) rfl rfl h
  unfold Work.transaction
  dsimp only
  split
  · split
    · exact fits_restartSupervision (w := (w.onState fun s => s.withLink (s.link.judged j)).flag .linkFault) hr (fits_flag hjudged _)
    · exact fits_restartSupervision (w := w.onState fun s => s.withLink (s.link.judged j)) hr hjudged
  · split
    · exact fits_flag hjudged _
    · exact hjudged

theorem fits_supervisionExpiry {w : Work} (hr : w.st.ctl.mode = .run) (h : w.st.Fits) : w.supervisionExpiry.st.Fits :=
  fits_foldl (fun _ p h => fits_setStale h true p) _
    (fits_setSystem (w := w.onState fun s => s.withLink { s.link with sup := .expired, supTimer := none }) hr rfl not_false true
      (fits_nt_pt (s := w.st) rfl rfl h))

/-! ## Raises of line-bound points -/

/-- Raises of ACTIVE points of enabled groups, one after another. -/
theorem serving_raiseEach (kind : RaiseKind) (us : List UserPt) {w : Work} (h : Serving w)
    (hus : ∀ u ∈ us, w.st.active (UserPt.pt u) = true ∧ w.st.Served (UserPt.pt u)) : Serving (Work.raiseEach kind w us) := by
  induction us generalizing w with
  | nil => exact h
  | cons u rest ih =>
    have hstep := tableStep_raiseUser w kind u .none
    have hframe := (touches_raiseUser w kind u .none).frame
    obtain ⟨ha, hs⟩ := hus u List.mem_cons_self
    refine ih ⟨(congrArg Control.mode hstep.ctl).trans h.run, tableOk_raiseUser h.table kind u .none,
      (fits_raiseUser h.run not_false ha hs h.fits kind .none).mono fun _ hq => hq.1⟩ fun v hv => ?_
    obtain ⟨hva, hvs⟩ := hus v (List.mem_cons_of_mem u hv)
    exact ⟨(hstep.cond _ (pt_ne_panelOverflow v)).trans hva, (served_framed hframe _).2 hvs⟩

theorem mem_lineActive {s : State} {f : UserPt → Bool} {u : UserPt} :
    u ∈ s.lineActive f ↔ s.linkSourced u = false ∧ s.active (UserPt.pt u) = true ∧ f u = true := by
  simp [State.lineActive, and_assoc]

/-- START raises on an empty table. -/
theorem fits_start {w : Work} (hok : w.st.TableOk) (hn : w.st.nt.notices = []) (hp : w.st.nt.pendSet = []) :
    w.start.st.Fits := by
  have hw1 : Serving (w.onState fun s => s.withCtl { s.ctl with mode := .run }) :=
    ⟨rfl, hok.congr rfl rfl rfl, fun q _ => noticeFits_of_none (notice?_of_empty hn q),
      fun u _ => pendFits_of_not_mem fun hu => by
        change u ∈ w.st.nt.pendSet at hu
        rw [hp] at hu
        cases hu⟩
  refine fits_nt_pt (s := (Work.raiseEach .startUp (w.onState fun s => s.withCtl { s.ctl with mode := .run }) _).st) rfl rfl
    (serving_raiseEach .startUp _ hw1 fun u hu => ?_).fits
  obtain ⟨-, ha, hg⟩ := mem_lineActive.1 hu
  exact ⟨ha, (served_pt _ _).2 hg⟩

/-! ## WRITE_GROUP -/

theorem served_putGroup {s : State} {a : GroupWrite} {q : Pt} (h : s.groupOf q = some a.group → s.Served q → a.enabled = true)
    (hs : s.Served q) : (s.putGroup a).Served q := by
  intro g hg
  change s.groupOf q = some g at hg
  rw [groupRec_putGroup]
  split
  · next he => exact h (he ▸ hg) hs
  · exact hs g hg

/-- A write that disables no enabled group. -/
theorem fits_putGroup {s : State} {a : GroupWrite} (ha : (s.groupRec a.group).enabled = true → a.enabled = true) (h : s.Fits) :
    (s.putGroup a).Fits :=
  ⟨fun q hq => noticeFits_congr (s := s) rfl rfl (served_putGroup fun hg hs => ha (hs _ hg)) (h.notice q hq),
    fun u hu => pendFits_congr (s := s) id rfl rfl (served_putGroup fun hg hs => ha (hs _ hg)) (h.pend u hu)⟩

/-- A write that disables a group leaves the points of the others right. -/
theorem fits_putGroup_disabled {s : State} {a : GroupWrite} (h : s.Fits) :
    (s.putGroup a).FitsBut fun q => s.groupOf q = some a.group :=
  ⟨fun q hq => noticeFits_congr (s := s) rfl rfl (served_putGroup fun hg _ => absurd hg hq) (h.notice q not_false),
    fun u hu => pendFits_congr (s := s) id rfl rfl (served_putGroup fun hg _ => absurd hg hu) (h.pend u not_false)⟩

/-- R30: the point of a retired notice has none. -/
theorem notice?_retire {w : Work} (hok : w.st.TableOk) {n : Notice} (hn : w.st.notice? n.point = some n) :
    (w.retire n).st.notice? n.point = none := by
  have hgone : (w.remove n true).st.notice? n.point = none := by rw [notice?_remove, if_pos rfl]
  unfold Work.retire
  dsimp only
  split
  · next huser =>
    obtain ⟨u, hu⟩ := Option.isSome_iff_exists.1 huser
    rw [userOf_eq_some_iff] at hu
    have hreach := touches_offerRecord (w := w.remove n true) (by rw [pendSet_remove]; exact hok.pendAscending)
      (pendApart_remove hok.pendApart n true)
    rw [← State.record?_eq_none, hreach.record, State.record?_eq_none]
    · exact hgone
    · rintro (hq | ⟨v, hv, hq⟩)
      · rw [hu] at hq; exact pt_ne_panelOverflow u hq
      · rw [pendSet_remove] at hv
        rw [hq] at hn
        exact not_mem_pendSet_of_notice? hok.pendApart hn hv
  · exact hgone

theorem notice?_retireAt {w : Work} (hok : w.st.TableOk) (p : Pt) : (w.retireAt p).st.notice? p = none := by
  unfold Work.retireAt
  split
  · next n hn =>
    obtain ⟨-, rfl⟩ := notice?_some hn
    exact notice?_retire hok hn
  · assumption

/-- R16, step 2: with the notices of a set of points retired, none of the set waiting, all is right but for the set, which has no
notice left. -/
theorem fits_retireAll {P : Pt → Prop} (hP : ¬P panelOverflow) (l : List Pt) {w : Work} (hr : w.st.ctl.mode = .run)
    (hok : w.st.TableOk) (hW : ∀ u ∈ w.st.nt.pendSet, ¬P (UserPt.pt u)) (h : w.st.FitsBut P)
    (hl : ∀ q, P q → w.st.notice? q ≠ none → q ∈ l) :
    (l.foldl Work.retireAt w).st.FitsBut P ∧ ∀ q, P q → (l.foldl Work.retireAt w).st.notice? q = none := by
  induction l generalizing w with
  | nil =>
    refine ⟨h, fun q hq => ?_⟩
    by_contra hne
    exact nomatch hl q hq hne
  | cons p rest ih =>
    have hreach := touches_retireAt hok p
    refine ih ((congrArg Control.mode (tableStep_retireAt w p).ctl).trans hr) (tableOk_retireAt hok p)
      (fun u hu => hW u (shrinks_retireAt w p u hu)) ?_ fun q hq hne => ?_
    · unfold Work.retireAt
      split
      · next n hn =>
        exact (fits_retire hr hok (by rw [(notice?_some hn).2]; exact hn) hP hW h).mono fun _ hq => hq.1
      · exact h
    · by_cases hqp : q = p
      · rw [hqp] at hne
        exact absurd (notice?_retireAt hok p) hne
      · have hsame : (w.retireAt p).st.record? q = w.st.record? q := hreach.record q (by
          rintro (he | he | ⟨u, hu, he⟩)
          · exact hqp he
          · exact hP (he ▸ hq)
          · exact hW u hu (he ▸ hq))
        have hlive : w.st.notice? q ≠ none := fun hnone => hne (by
          rw [← State.record?_eq_none, hsame, State.record?_eq_none]
          exact hnone)
        exact (List.mem_cons.1 (hl q hq hlive)).resolve_left hqp

theorem mem_groupNotices {s : State} {g : GroupNo} {q : Pt} :
    q ∈ s.groupNotices g ↔ s.groupOf q = some g ∧ s.notice? q ≠ none := by
  rw [State.groupNotices, List.mem_map]
  constructor
  · rintro ⟨n, hn, rfl⟩
    obtain ⟨hmem, hg⟩ := List.mem_filter.1 hn
    exact ⟨of_decide_eq_true hg, fun hnone => notice?_none.1 hnone n hmem rfl⟩
  · rintro ⟨hg, hne⟩
    obtain ⟨n, hn⟩ := Option.ne_none_iff_exists'.1 hne
    obtain ⟨hmem, rfl⟩ := notice?_some hn
    exact ⟨n, List.mem_filter.2 ⟨hmem, decide_eq_true hg⟩, rfl⟩

theorem active_clearGroupLinks (s : State) (g : GroupNo) (p : Pt) :
    (s.clearGroupLinks g).active p = match userOf p with
      | some u => s.active p && !s.groupLinkActive g u
      | none => s.active p := get_vmap _ _ _

theorem active_clearGroupLinks_of_ne {s : State} {g : GroupNo} {q : Pt} (h : s.groupOf q ≠ some g) :
    (s.clearGroupLinks g).active q = s.active q := by
  rw [active_clearGroupLinks]
  cases hu : userOf q with
  | none => rfl
  | some u =>
    rw [userOf_eq_some_iff] at hu
    rw [hu, groupOf_pt] at h
    have hne : (s.pointRec u).group ≠ g := fun he => h (by rw [he])
    simp [State.groupLinkActive, hne]

theorem fits_disableGroup {w : Work} (hr : w.st.ctl.mode = .run) (hok : w.st.TableOk) (g : GroupNo)
    (h : w.st.FitsBut fun q => w.st.groupOf q = some g) : (w.disableGroup g).st.Fits := by
  have hP : ¬w.st.groupOf panelOverflow = some g := by rw [groupOf_of_userOf_none _ rfl]; simp
  have hstep := tableStep_withdraw w fun u => decide ((w.st.pointRec u).group = g)
  have hframe := (alters_withdraw w fun u => decide ((w.st.pointRec u).group = g)).frame
  have hok1 := tableOk_withdraw hok fun u => decide ((w.st.pointRec u).group = g)
  have hleft := fits_withdraw hr hP h fun u => decide ((w.st.pointRec u).group = g)
  have hpend := pendSet_withdraw w fun u => decide ((w.st.pointRec u).group = g)
  unfold Work.disableGroup
  dsimp only
  generalize (w.withdraw fun u => decide ((w.st.pointRec u).group = g)) = w1 at hstep hframe hok1 hleft hpend ⊢
  have hW : ∀ u ∈ w1.st.nt.pendSet, ¬w.st.groupOf (UserPt.pt u) = some g := by
    intro u hu
    rw [hpend, List.mem_filter] at hu
    rw [groupOf_pt]
    simpa using hu.2
  obtain ⟨hfits, hnone⟩ := fits_retireAll hP (w1.st.groupNotices g) ((congrArg Control.mode hstep.ctl).trans hr) hok1 hW hleft
    fun q hq hne => mem_groupNotices.2 ⟨(groupOf_framed hframe q).trans hq, hne⟩
  obtain ⟨hreach, hshrink⟩ := touches_foldl (fun _ p h => tableOk_retireAt h p) (fun _ p h => touches_retireAt h p)
    shrinks_retireAt (w1.st.groupNotices g) w1 hok1
  generalize (w1.st.groupNotices g).foldl Work.retireAt w1 = w2 at hfits hnone hreach hshrink ⊢
  have hgroup (q : Pt) : w2.st.groupOf q = w.st.groupOf q := groupOf_framed (hframe.trans hreach.frame) q
  have hcleared : (w2.onState fun s => s.clearGroupLinks g).st.Fits := by
    refine ⟨fun q _ => ?_, fun u _ hu => ?_⟩
    · by_cases hq : w.st.groupOf q = some g
      · exact noticeFits_of_none (s := w2.st.clearGroupLinks g) (hnone q hq)
      · exact noticeFits_congr (s := w2.st) (t := w2.st.clearGroupLinks g) rfl
          (active_clearGroupLinks_of_ne (by rw [hgroup]; exact hq)) id (hfits.notice q hq)
    · have hq := hW u (hshrink u hu)
      exact pendFits_congr (s := w2.st) (t := w2.st.clearGroupLinks g) id rfl
        (active_clearGroupLinks_of_ne (by rw [hgroup]; exact hq)) id (hfits.pend u hq) hu
  exact fits_setMarker (fits_foldl (fun _ p h => fits_returnToView h p) _ hcleared) g none

/-! What WRITE_GROUP begins with (R14): the fields, and in RUN what their change asks for. -/

theorem writeGroup_stores {s : State} {a : GroupWrite}
    (h : s.ctl.mode = .config ∨
      ((s.groupRec a.group).enabled = a.enabled ∧ ((s.groupRec a.group).enabled = false ∨ (s.groupRec a.group).level = a.level))) :
    s.work.writeGroup a = s.work.onState fun s => s.putGroup a := by
  unfold Work.writeGroup
  dsimp only [State.work_st]
  split
  · rfl
  · next hm ho hn => simp [hm, ho, hn] at h
  · next hm ho hn => simp [hm, ho, hn] at h
  · next hm ho hn => rw [if_pos (by simpa [hm, ho, hn] using h)]
  · rfl

theorem writeGroup_disables {s : State} {a : GroupWrite} (hm : s.ctl.mode = .run) (ho : (s.groupRec a.group).enabled = true)
    (hn : a.enabled = false) : s.work.writeGroup a = (s.work.onState fun s => s.putGroup a).disableGroup a.group := by
  unfold Work.writeGroup
  dsimp only [State.work_st]
  rw [hm, ho, hn]

theorem writeGroup_reEnables {s : State} {a : GroupWrite} (hm : s.ctl.mode = .run) (ho : (s.groupRec a.group).enabled = false)
    (hn : a.enabled = true) : s.work.writeGroup a = (s.work.onState fun s => s.putGroup a).reEnableGroup a.group := by
  unfold Work.writeGroup
  dsimp only [State.work_st]
  rw [hm, ho, hn]

theorem writeGroup_relevels {s : State} {a : GroupWrite} (hm : s.ctl.mode = .run) (ho : (s.groupRec a.group).enabled = true)
    (hn : a.enabled = true) (hl : (s.groupRec a.group).level ≠ a.level) :
    s.work.writeGroup a = (s.work.onState fun s => s.putGroup a).changeLevel a.group a.level := by
  unfold Work.writeGroup
  dsimp only [State.work_st]
  rw [hm, ho, hn]
  exact if_neg hl

theorem serving_reEnableGroup {w : Work} {g : GroupNo} (h : Serving w) (hg : (w.st.groupRec g).enabled = true) :
    Serving (w.reEnableGroup g) :=
  serving_raiseEach .reEnable _ h fun u hu => by
    obtain ⟨-, ha, hgroup⟩ := mem_lineActive.1 hu
    refine ⟨ha, (served_pt _ _).2 ?_⟩
    rw [State.groupEnabled, of_decide_eq_true hgroup]
    exact hg

theorem enabled_putGroup (s : State) (a : GroupWrite) : ((s.putGroup a).groupRec a.group).enabled = a.enabled := by
  rw [groupRec_putGroup, if_pos rfl]

theorem fits_writeGroup {s : State} (hr : s.ctl.mode = .run) (hok : s.TableOk) (h : s.Fits) (a : GroupWrite) :
    (s.work.writeGroup a).st.Fits := by
  have hputOk : (s.putGroup a).TableOk := hok.congr rfl rfl rfl
  cases hold : (s.groupRec a.group).enabled with
  | false =>
    cases hnew : a.enabled with
    | false =>
      rw [writeGroup_stores (.inr ⟨hold.trans hnew.symm, .inl hold⟩)]
      exact fits_putGroup (s := s) (fun he => by rw [hold] at he; cases he) h
    | true =>
      rw [writeGroup_reEnables hr hold hnew]
      exact (serving_reEnableGroup (w := s.work.onState fun s => s.putGroup a) ⟨hr, hputOk, fits_putGroup (fun _ => hnew) h⟩
        ((enabled_putGroup s a).trans hnew)).fits
  | true =>
    cases hnew : a.enabled with
    | false =>
      rw [writeGroup_disables hr hold hnew]
      exact fits_disableGroup (w := s.work.onState fun s => s.putGroup a) hr hputOk a.group (fits_putGroup_disabled h)
    | true =>
      have hput := fits_putGroup (fun _ => hnew) h
      by_cases hl : (s.groupRec a.group).level = a.level
      · rw [writeGroup_stores (.inr ⟨hold.trans hnew.symm, .inr hl⟩)]
        exact hput
      · rw [writeGroup_relevels hr hold hnew hl]
        exact fits_foldl (f := Work.setLevel a.level) (w := s.work.onState fun s => s.putGroup a)
          (fun _ p h => fits_change h p (fun _ => rfl) fun _ => rfl) _ hput

/-! ## WRITE_POINT, RAISE -/

theorem pointIsLive_eq_false_iff (s : State) (u : UserPt) :
    s.pointIsLive u = false ↔ s.notice? (UserPt.pt u) = none ∧ u ∉ s.nt.pendSet ∧ s.shelved (UserPt.pt u) = false := by
  simp [State.pointIsLive, Bool.or_eq_false_iff, and_assoc]

theorem fits_putPoint {s : State} {u : UserPt} (r : PointRec) (hn : s.notice? (UserPt.pt u) = none) (hp : u ∉ s.nt.pendSet)
    (h : s.Fits) : (s.putPoint u r).Fits := by
  have hrec {v : UserPt} (hv : v ≠ u) : (s.putPoint u r).pointRec v = s.pointRec v := by rw [pointRec_putPoint, if_neg hv]
  have hserved {q : Pt} (hq : q ≠ UserPt.pt u) (hs : s.Served q) : (s.putPoint u r).Served q := by
    intro g hg
    refine hs g ?_
    rw [← hg]
    unfold State.groupOf
    cases hu : userOf q with
    | none => rfl
    | some v =>
      rw [userOf_eq_some_iff] at hu
      rw [Option.map_some, Option.map_some, hrec fun he => hq (by rw [hu, he])]
  refine ⟨fun q _ => ?_, fun v _ => ?_⟩
  · by_cases hq : q = UserPt.pt u
    · rw [hq]; exact noticeFits_of_none (s := s.putPoint u r) hn
    · exact noticeFits_congr (s := s) (t := s.putPoint u r) rfl rfl (hserved hq) (h.notice q not_false)
  · by_cases hv : v = u
    · rw [hv]; exact pendFits_of_not_mem (s := s.putPoint u r) hp
    · exact pendFits_congr (s := s) (t := s.putPoint u r) id (hrec hv) rfl (hserved fun he => hv (pt_inj.1 he)) (h.pend v not_false)

theorem fits_rewritePoint {s : State} (hr : s.ctl.mode = .run) (hok : s.TableOk) {u : UserPt} (hlive : s.pointIsLive u = false)
    (h : s.Fits) (r : PointRec) : (s.work.rewritePoint u r).st.Fits := by
  obtain ⟨hn, hp, -⟩ := (pointIsLive_eq_false_iff s u).1 hlive
  have hput := fits_putPoint r hn hp h
  unfold Work.rewritePoint
  dsimp only
  split
  · exact fits_setUser (w := s.work.onState fun s => s.putPoint u r) hr (hok.congr rfl rfl rfl) u false false (.inr ⟨hn, hp⟩) hput
  · exact hput

theorem fits_hostRaise {s : State} (hr : s.ctl.mode = .run) {u : UserPt} (hg : s.groupEnabled u = true) (h : s.Fits)
    (f : NoticeField) : (s.work.hostRaise u f).st.Fits := by
  have hbut : (s.work.putCond (UserPt.pt u) true).st.FitsBut (· = UserPt.pt u) :=
    State.FitsBut.touch (a := s.work) h (alters_putCond s.work _ true).toTouches (fun _ _ _ => not_false)
      (fun q hq hR => absurd hq hR) fun v hq hR => absurd hq hR
  exact (fits_raiseUser (w := s.work.putCond (UserPt.pt u) true) hr (fun hp => pt_ne_panelOverflow u hp.symm)
    (by rw [active_putCond, if_pos rfl]) ((served_pt s u).2 hg) hbut .link f).mono fun q hq => hq.2 hq.1

/-! ## Every step -/

theorem Aside.fits {s t : State} (h : Aside s t) (hs : s.Fits) : t.Fits := fits_nt_pt h.nt h.pt hs

/-- The events of RUN. -/
theorem fits_event {s : State} {w : Work} (hw : EventOf s w) (hr : s.ctl.mode = .run) (hok : s.TableOk) (h : s.Fits)
    (hstays : w.st.ctl.mode = .run) : w.st.Fits := by
  have hserving : Serving s.work := ⟨hr, hok, h⟩
  cases hw with
  | aside v _ hv => exact hv.fits h
  | writePoint _ _ hm | writeLine _ hm | start hm => rw [hm] at hr; cases hr
  | rewritePoint u r _ hlive => exact fits_rewritePoint hr hok hlive h r
  | writeGroup a => exact fits_writeGroup hr hok h a
  | writePanel a =>
    obtain ⟨r, hunseen⟩ := unseenStep_putPanel s a
    exact fits_congr (s := s) (phase?_map hunseen.notices (fun n => (hunseen.alike n).point) fun n => (hunseen.alike n).phase)
      (by show (s.putPanel a).nt.pendSet = _; rw [putPanel_notices]) rfl h
  | hostRaise u f _ hg => exact fits_hostRaise hr hg h f
  | clear u => exact fits_setUser (w := s.work) hr hok u false true (.inl rfl) h
  | ackAll scope => exact (serving_ackAll hserving scope).fits
  | resetAll scope => exact (serving_resetAll hserving scope).fits
  | silence => exact fits_silenceAll (w := s.work) h
  | retire p n _ hn => exact fits_retire' (w := s.work) hr hok (by rw [(notice?_some hn).2]; exact hn) h
  | shelve | scroll => exact fits_nt_pt (s := s) rfl rfl h
  | unshelve u =>
    exact fits_returnToView (w := s.work.onState fun s => s.withShelf (dropEntry u s.shelf)) (fits_nt_pt (s := s) rfl rfl h) _
  | stop => exact absurd hstays (by show Mode.config ≠ _; decide)
  | supervisionExpiry => exact fits_supervisionExpiry (w := s.work) hr h
  | qualified l => exact fits_qualified (w := s.work) hr hok h l
  | releaseLine l =>
    exact fits_moveLine ((steady_markChattering s.work _ false).mode.trans hr) (tableOk_markChattering (w := s.work) hok _ false)
      (fits_markChattering (w := s.work) h _ false) _ _
  | shelfExpiry u =>
    exact fits_returnToView (w := (s.work.onState fun s => s.withShelf (dropEntry u s.shelf)).flag .shelfExpiry)
      (fits_nt_pt (s := s) rfl rfl h) _
  | realert p n =>
    unfold Work.realertExpiry
    dsimp only
    split <;> exact fits_change (w := s.work) h _ (fun _ => rfl) fun _ => rfl
  | ackPress => exact fits_flag (serving_ackAll hserving _).fits _
  | silencePress => exact fits_flag (fits_silenceAll (w := s.work) h) _
  | resetPress => exact fits_flag (serving_resetAll hserving _).fits _
  | scrollHome =>
    refine fits_nt_pt (s := s) ?_ ?_ h
    all_goals
      unfold State.scrollHome Work.onState
      dsimp only
      split <;> rfl

/-- In CONFIG the law says nothing. -/
theorem serviceOk_of_config {s : State} (h : s.ConfigEmpty) (hc : s.ctl.mode = .config) : s.ServiceOk := by
  obtain ⟨hn, hp, -⟩ := h hc
  refine ⟨?_, ?_, ?_⟩
  · rw [hn]; exact fun n hm => nomatch hm
  · rw [hn]; exact fun n hm => nomatch hm
  · rw [hp]; exact fun u hm => nomatch hm

theorem Mode.run_of_ne_config {m : Mode} (h : m ≠ .config) : m = .run := by
  cases m
  · exact absurd rfl h
  · rfl

/-- R203: START alone leaves CONFIG. -/
theorem start_of_leaves_config {s : State} {w : Work} (hw : EventOf s w) (hc : s.ctl.mode = .config) (hr : w.st.ctl.mode = .run) :
    w = s.work.start := by
  have steady {P : Prop} (hst : w.st.ctl.mode = s.ctl.mode) : P := by rw [hst, hc] at hr; cases hr
  cases hw with
  | start => rfl
  | aside v _ hv => exact steady hv.mode
  | writePoint | writePanel => exact steady rfl
  | rewritePoint _ _ hm | hostRaise _ _ hm | clear _ hm | ackAll _ hm | resetAll _ hm | silence hm | retire _ _ hm | shelve _ _ hm
  | unshelve _ hm | stop hm | ackPress hm | silencePress hm | resetPress hm | scroll _ hm => rw [hc] at hm; cases hm
  | writeGroup a => exact steady (steady_writeGroup s.work a).mode
  | writeLine a => exact steady (steady_writeLine s.work a).mode
  | supervisionExpiry => exact steady (steady_supervisionExpiry s.work).mode
  | qualified l => exact steady (steady_qualified s.work l).mode
  | releaseLine l => exact steady ((steady_markChattering s.work _ _).trans (steady_moveLine _ _ _)).mode
  | shelfExpiry u =>
    exact steady (tableStep_returnToView ((s.work.onState fun s => s.withShelf (dropEntry u s.shelf)).flag .shelfExpiry)
      (UserPt.pt u)).steady.mode
  | realert p n => exact steady (steady_realertExpiry s.work n).mode
  | scrollHome =>
    refine steady ?_
    show s.scrollHome.ctl.mode = _
    unfold State.scrollHome
    dsimp only
    split <;> rfl

theorem fits_stepTo {s t : State} (h : StepTo s t) (hok : s.TableOk) (hc : s.ConfigEmpty) (hs : s.Fits)
    (hrun : t.ctl.mode = .run) : t.Fits := by
  cases h with
  | aside _ h => exact h.fits hs
  | ticked => exact fits_congr (s := s) (phase?_map (f := fun n => { n with realert := n.realert.map Countdown.tick }) rfl
      (fun _ => rfl) fun _ => rfl) rfl rfl hs
  | cleared s1 c hm => rw [show (s1.cleared.withCtl c).ctl.mode = .config from hm] at hrun; cases hrun
  | event s1 w _ h1 hw ht =>
    have hstays : w.st.ctl.mode = .run := by rw [← settle_ctl s1 w, ← ht.mode]; exact hrun
    refine ht.fits (fits_nt_pt (settle_nt s1 w) (settle_pt s1 w) ?_)
    by_cases hm : s1.ctl.mode = .run
    · exact fits_event hw hm (h1.tableOk hok) (h1.fits hs) hstays
    · have hmode : s1.ctl.mode = .config := by
        by_contra hne
        exact hm (Mode.run_of_ne_config hne)
      obtain ⟨hn, hp, -⟩ := h1.configEmpty hc hmode
      rw [start_of_leaves_config hw hmode hstays]
      exact fits_start (w := s1.work) (h1.tableOk hok) hn hp
  | transaction k j =>
    have hm : s.ctl.mode = .run := by
      rw [settle_ctl, (steady_transaction (s.withLink k).work j).mode] at hrun
      exact hrun
    exact fits_nt_pt (settle_nt _ _) (settle_pt _ _)
      (fits_transaction (w := (s.withLink k).work) hm (fits_nt_pt (s := s) rfl rfl hs) j)

/-- Settles O6: in RUN every event keeps each point's notice and place in line with its condition; CONFIG has neither. -/
theorem stepKeepsConditionConsistency : Obligations.StepKeepsConditionConsistency := by
  intro s t hok hc hs h
  by_cases hm : t.ctl.mode = .config
  · exact serviceOk_of_config (stepKeepsConfigEmpty s t hc h) hm
  · rw [serviceOk_iff hok] at hs
    rw [serviceOk_iff (stepKeepsTheTable s t hok h)]
    rcases step_cases h with h | ⟨s0, h0, h⟩
    · exact h.fits hs
    · exact fits_stepTo h (h0.tableOk hok) (h0.configEmpty hc) (h0.fits hs) (Mode.run_of_ne_config hm)

end Sys2Proof.Machine

/-! From the operations of an event to the state that it leaves; many changes of records in one event: WRITE_GROUP's levels and
SILENCE (R15, R42). -/

namespace Sys2Proof.Machine

/-- State t has the notices, the conditions, the groups, the Shelf List and the flags of state s: the end of an event and the run
of a request leave them. -/
structure SameTable (s t : State) : Prop where
  nt : t.nt = s.nt
  pt : t.pt = s.pt
  shelf : t.shelf = s.shelf
  flags : t.link.flags = s.link.flags

theorem sameTable_settle (b : State) (w : Work) : SameTable w.st (settle b w) :=
  ⟨settle_nt b w, settle_pt b w, settle_shelf b w, by rw [settle_link]⟩

theorem sameTable_replied (b : State) (w : Work) (kind : Byte) (pl : List Byte) (r : Result) (reply : List Byte) :
    SameTable w.st ((settle b w).replied kind pl r reply) :=
  ⟨settle_nt b w, settle_pt b w, settle_shelf b w, by show (settle b w).link.flags = _; rw [settle_link]⟩

section
variable {s t : State} (h : SameTable s t)
include h

theorem SameTable.notice? (p : Pt) : t.notice? p = s.notice? p := by rw [State.notice?, h.nt]; rfl
theorem SameTable.active (p : Pt) : t.active p = s.active p := by rw [State.active, h.pt]; rfl
theorem SameTable.groupRec (g : GroupNo) : t.groupRec g = s.groupRec g := by rw [State.groupRec, h.pt]; rfl
theorem SameTable.pointRec (u : UserPt) : t.pointRec u = s.pointRec u := by rw [State.pointRec, h.pt]; rfl
theorem SameTable.flagged (e : AttnEvent) : t.flagged e = s.flagged e := by rw [State.flagged, h.flags]; rfl
theorem SameTable.presented : t.presented = s.presented := presented_congr h.nt h.pt h.shelf

theorem SameTable.suppressed (p : Pt) : t.suppressed p = s.suppressed p := by
  unfold State.suppressed State.parentOf
  simp only [h.pointRec, h.active]

end

/-- What an event at conditions and notices leaves as it was. -/
theorem eventFrame_settle {a : State} {w : Work} (b : State) (h : Framed a w.st) : EventFrame a (settle b w) := by
  obtain ⟨m, hm⟩ := h.link
  have hstep : TableStep (a.withPt { a.pt with cond := w.st.pt.cond }) w.st :=
    ⟨h.pending, h.ctl, h.points, h.group, fun _ _ => rfl, h.shelf, h.lq, h.kp, h.snd, h.pres, by rw [hm]; rfl⟩
  obtain ⟨h1, h2, h3, h4, h5, h6, h7, h8, h9, h10⟩ := eventFrame_of_tableStep b hstep
  exact ⟨h1, h2, h3, h4, h5, h6, h7, h8, h9, h10⟩

theorem eventFrame_replied {a t : State} (h : EventFrame a t) (kind : Byte) (pl : List Byte) (r : Result) (reply : List Byte) :
    EventFrame a (t.replied kind pl r reply) := by
  obtain ⟨h1, h2, h3, h4, h5, h6, h7, h8, h9, h10⟩ := h
  refine ⟨h1, h2, h3, h4, h5, h6, h7, h8, h9, ?_⟩
  exact congrArg (fun k : Link => { k with ran := some { kind := kind, request := pl, result := r, reply := reply } }) h10

/-! ## Many changes of records -/

/-- R36: one change each to the records of a list of points. -/
def Work.changeAll (f : Notice → Notice) (w : Work) (l : List Pt) : Work := l.foldl (fun w p => w.change p f) w

section
variable {f : Notice → Notice} (hf : ∀ n, (f n).point = n.point)

theorem changeAll_cons (w : Work) (p : Pt) (l : List Pt) : w.changeAll f (p :: l) = (w.change p f).changeAll f l := rfl

/-- They leave everything but the table. -/
theorem changeAll_eq (w : Work) (l : List Pt) : w.changeAll f l = { w with st := w.st.withNt (w.changeAll f l).st.nt } := by
  induction l generalizing w with
  | nil => rfl
  | cons p rest ih => rw [changeAll_cons]; exact ih (w.change p f)

theorem pendSet_changeAll (w : Work) (l : List Pt) : (w.changeAll f l).st.nt.pendSet = w.st.nt.pendSet := by
  induction l generalizing w with
  | nil => rfl
  | cons p rest ih => rw [changeAll_cons, ih]; rfl

theorem arrival_changeAll (w : Work) (l : List Pt) : (w.changeAll f l).st.nt.arrival = w.st.nt.arrival := by
  induction l generalizing w with
  | nil => rfl
  | cons p rest ih => rw [changeAll_cons, ih]; rfl

/-- R36: the table revision counts the changes. -/
theorem rev_changeAll (w : Work) (l : List Pt) : (w.changeAll f l).st.nt.rev = w.st.nt.rev + BitVec.ofNat 16 l.length := by
  induction l generalizing w with
  | nil => simp [Work.changeAll]
  | cons p rest ih =>
    rw [changeAll_cons, ih, Work.change_nt, NoticeTable.change_rev, List.length_cons, BitVec.ofNat_add, BitVec.add_assoc]
    congr 1
    exact BitVec.add_comm _ _

include hf

theorem alters_changeAll (w : Work) (l : List Pt) : Alters (· ∈ l) w (w.changeAll f l) :=
  alters_foldl (fun w p => alters_change w p hf) l w

/-- Each record of the list is changed once. -/
theorem notice?_changeAll {l : List Pt} (hl : l.Nodup) (w : Work) {q : Pt} {n : Notice} (hn : w.st.notice? q = some n) :
    Holds ((w.changeAll f l).st.notice? q) fun m => if q ∈ l then m = { f n with rev := m.rev } else m = n := by
  induction l generalizing w with
  | nil => exact ⟨n, hn, by simp⟩
  | cons p rest ih =>
    obtain ⟨hp, hrest⟩ := List.nodup_cons.1 hl
    rw [changeAll_cons]
    by_cases hq : q = p
    · subst hq
      have hchanged : (w.change q f).st.notice? q = some { f n with rev := w.st.nt.rev + 1 } := by
        rw [notice?_change w q hf, if_pos rfl, hn]
        rfl
      rw [((alters_changeAll hf (w.change q f) rest).notice q hp), hchanged]
      exact ⟨_, rfl, by simp⟩
    · have hkept : (w.change p f).st.notice? q = some n := by rw [notice?_change w p hf, if_neg hq, hn]
      obtain ⟨m, hm, hcase⟩ := ih hrest (w.change p f) hkept
      refine ⟨m, hm, ?_⟩
      simpa [hq] using hcase

end

/-- R24: in a table by points, a selection of the live notices names each point once. -/
theorem nodup_points {s : State} (h : s.TableOk) (keep : Notice → Bool) : ((s.nt.notices.filter keep).map (·.point)).Nodup :=
  List.pairwise_map.2 ((h.1.filter keep).imp ne_of_lt)

/-! ## WRITE_GROUP -/

theorem exec_writeGroup {s : State} {a : GroupWrite} (h1 : 1 ≤ a.level) (h2 : a.level ≤ 4) :
    exec (.writeGroup a.payload) s = .next (s.request 0x12 a.payload (.act .ok (s.work.writeGroup a))) := by
  show Host.Outcome.next (s.request _ _ (writeGroupVerdict s _)) = _
  rw [writeGroupVerdict, parseGroup_payload a h1 h2]
  rfl

/-- R15: a record at another level. -/
def Notice.relevelled (level : Nat) (n : Notice) : Notice := { n with level := level }

theorem changeLevel_eq (w : Work) (g : GroupNo) (level : Nat) :
    w.changeLevel g level = w.changeAll (Notice.relevelled level) (w.st.groupNotices g) := rfl

/-- Settles O29: without a change that acts, nothing seen moves; a new level is one change to each record of the group. -/
theorem writeGroupStoresAndRelevels : Obligations.WriteGroupStoresAndRelevels := by
  intro s a hok hchirp hs h1 h2 old stored
  rw [exec_writeGroup h1 h2, request_act_replied hs]
  refine ⟨fun hstill => ?_, fun hm ho hn hl => ?_⟩
  · rw [writeGroup_stores hstill, settle_onState_still (fun v => v.putGroup a) hchirp rfl (compositionDue_self s)]
    rfl
  · have hw := writeGroup_relevels hm ho hn hl
    have hall : s.work.writeGroup a = (s.work.onState fun s => s.putGroup a).changeAll (Notice.relevelled a.level)
        (s.groupNotices a.group) := hw
    have heq := changeAll_eq (f := Notice.relevelled a.level) (s.work.onState fun s => s.putGroup a) (s.groupNotices a.group)
    have hok' := tableOk_writeGroup (w := s.work) hok a
    rw [hall] at hok' ⊢
    have hsame := sameTable_replied s ((s.work.onState fun s => s.putGroup a).changeAll (Notice.relevelled a.level)
      (s.groupNotices a.group)) 0x12 a.payload .ok []
    have hframe : Framed stored ((s.work.onState fun s => s.putGroup a).changeAll (Notice.relevelled a.level)
      (s.groupNotices a.group)).st := (alters_changeAll (by exact fun _ => rfl) (s.work.onState fun s => s.putGroup a) _).frame
    refine ⟨_, rfl, eventFrame_replied (eventFrame_settle s hframe) _ _ _ _, rfl, ?_, ?_, ?_, ?_, ?_, fun p n hn => ?_, ?_, ?_⟩
    · rw [hsame.pt, heq]; rfl
    · rw [hsame.nt, pendSet_changeAll]; rfl
    · rw [hsame.nt, arrival_changeAll]; rfl
    · rw [hsame.flags, heq]; rfl
    · rw [hsame.nt, rev_changeAll]; rfl
    · obtain ⟨m, hm, hcase⟩ := notice?_changeAll (f := Notice.relevelled a.level) (l := s.groupNotices a.group) (fun _ => rfl)
        (nodup_points hok _) (s.work.onState fun s => s.putGroup a) (q := p) (n := n) hn
      refine ⟨m, (hsame.notice? p).trans hm, ?_⟩
      beta_reduce
      by_cases hg : s.groupOf p = some a.group
      · rw [if_pos hg]
        rwa [if_pos (mem_groupNotices.2 ⟨hg, by rw [hn]; simp⟩)] at hcase
      · rw [if_neg hg]
        rwa [if_neg fun hmem => hg (mem_groupNotices.1 hmem).1] at hcase
    · refine windowFollows_recordRun _ (windowFollows_settle s _ _ ?_ ?_ ?_ (presented_points hok') fun n _ _ => ?_)
      · rw [heq]; exact hm
      · rw [heq]; rfl
      · rw [heq]; rfl
      · rw [heq]; simp
    · refine chirpFollows_recordRun _ (chirpFollows_settle s _ _ ?_ fun n _ _ _ _ => ?_)
      · rw [heq]; rfl
      · rw [heq]; simp

/-! ## SILENCE and the realert countdown -/

/-- R42: what a silence does to a record. -/
def Notice.quieted (minutes : Nat) (n : Notice) : Notice :=
  { n with
    silenced := true
    realert := if n.phase.unseen ∧ minutes ≠ 0 then some (Countdown.start (minutes * 60)) else n.realert }

theorem silenceAt_foldl (l : List Pt) (w : Work) :
    l.foldl Work.silenceAt w = w.changeAll (Notice.quieted w.st.snd.realertMin) l := by
  induction l generalizing w with
  | nil => rfl
  | cons p rest ih => exact ih (w.silenceAt p)

theorem mem_soundingScope {s : State} (h : s.TableOk) {n : Notice} (hn : n ∈ s.nt.notices) :
    n.point ∈ s.soundingScope ↔ s.sounding n = true := by
  rw [State.soundingScope, List.mem_map]
  constructor
  · rintro ⟨m, hm, hp⟩
    obtain ⟨hmem, hsound⟩ := List.mem_filter.1 hm
    have he := h.notice?_of_mem hmem
    rw [hp, h.notice?_of_mem hn] at he
    cases he
    exact hsound
  · exact fun hsound => ⟨n, List.mem_filter.2 ⟨hn, hsound⟩, rfl⟩

/-- R121: where nothing sounds no steady pattern applies. -/
theorem steadyPattern_of_quiet {s : State} (h : ∀ n ∈ s.nt.notices, s.sounding n = false) : s.steadyPattern = none := by
  have hat (level : Nat) : s.soundsAt level = false := by
    rw [State.soundsAt, List.any_eq_false]
    intro n hn
    simp [h n hn]
  have hring : (s.nt.notices.any fun n => s.sounding n && n.phase = .returned) = false := by
    rw [List.any_eq_false]
    intro n hn
    simp [h n hn]
  simp [State.steadyPattern, hat, hring]

/-- What sounds reads the view's causes, the record and the floor. -/
theorem sounding_congr {s t : State} (hpt : t.pt = s.pt) (hsh : t.shelf = s.shelf) (hfloor : t.snd.floor = s.snd.floor)
    (n : Notice) : t.sounding n = s.sounding n := by
  unfold State.sounding State.withheld State.shelved State.shelfEntry? State.suppressed
    State.parentOf State.ackable State.classOf State.seqOf State.pointRec State.active
  rw [hpt, hsh, hfloor]

theorem sounding_silenced (s : State) {n : Notice} (h : n.silenced = true) : s.sounding n = false := by
  simp [State.sounding, h]

theorem silenceAll_eq (w : Work) :
    w.silenceAll = { w with
      st := (w.st.withNt (w.changeAll (Notice.quieted w.st.snd.realertMin) w.st.soundingScope).st.nt).withSnd
        { w.st.snd with chirp := none } } := by
  rw [Work.silenceAll, silenceAt_foldl, changeAll_eq]
  rfl

/-- R42: the records after a silence. -/
theorem notice?_silenceAll {w : Work} (h : w.st.TableOk) {p : Pt} {n : Notice} (hn : w.st.notice? p = some n) :
    Holds (w.silenceAll.st.notice? p) fun m =>
      if w.st.sounding n = true then m = { n.quieted w.st.snd.realertMin with rev := m.rev } else m = n := by
  obtain ⟨m, hm, hcase⟩ := notice?_changeAll (f := Notice.quieted w.st.snd.realertMin) (l := w.st.soundingScope) (fun _ => rfl) (nodup_points h _) w hn
  obtain ⟨hmem, hp⟩ := notice?_some hn
  refine ⟨m, ?_, ?_⟩
  · rw [silenceAll_eq]; exact hm
  · beta_reduce at hcase ⊢
    have hiff := mem_soundingScope h hmem
    rw [hp] at hiff
    by_cases hsound : w.st.sounding n = true
    · rw [if_pos hsound]
      rwa [if_pos (hiff.2 hsound)] at hcase
    · rw [if_neg hsound]
      rwa [if_neg fun hmem => hsound (hiff.1 hmem)] at hcase

theorem quiet_silenceAll {w : Work} (h : w.st.TableOk) : ∀ m ∈ w.silenceAll.st.nt.notices, w.silenceAll.st.sounding m = false := by
  intro m hm
  have hm' := (tableOk_silenceAll h).notice?_of_mem hm
  have hsound (n : Notice) : w.silenceAll.st.sounding n = w.st.sounding n := by
    rw [silenceAll_eq]
    exact sounding_congr rfl rfl rfl n
  cases hn : w.st.notice? m.point with
  | none =>
    have hreach := alters_changeAll (f := Notice.quieted w.st.snd.realertMin) (fun _ => rfl) w w.st.soundingScope
    have hnone : w.silenceAll.st.notice? m.point = none := by
      have hpoints : (w.changeAll (Notice.quieted w.st.snd.realertMin) w.st.soundingScope).st.notice? m.point = none := by
        rw [hreach.notice, hn]
        intro hmem
        obtain ⟨x, hx, hp⟩ := List.mem_map.1 hmem
        exact notice?_none.1 hn x (List.mem_filter.1 hx).1 hp
      rw [silenceAll_eq]
      exact hpoints
    rw [hnone] at hm'
    cases hm'
  | some n =>
    obtain ⟨m', hm'', hcase⟩ := notice?_silenceAll h hn
    rw [hm'] at hm''
    cases hm''
    split at hcase
    · rw [hsound, hcase]
      exact sounding_silenced _ rfl
    · next hns =>
      rw [hsound, hcase]
      simpa using hns

theorem exec_realertExpiry {s : State} {p : Pt} {n : Notice} {c : Countdown} (hs : s.inService = true) (hn : s.notice? p = some n)
    (hc : n.realert = some c) (hdue : c.due = true) :
    exec (.realertExpiry p) s = .next (settle s (s.work.realertExpiry n)) := by
  show Host.Outcome.next _ = _
  rw [hn]
  simp [hs, hc, expiryDue, hdue]

theorem realertExpiry_eq (w : Work) (n : Notice) :
    w.realertExpiry n =
      { w with
        st := w.st.withNt (w.st.nt.change n.point fun m => { m with silenced := false, realert := none })
        chirps := if n.phase = .alert then n.point :: w.chirps else w.chirps } := by
  unfold Work.realertExpiry
  dsimp only
  split <;> rfl

/-- Settles O43: a realert is one change and a candidate for the burst; a silence is one change to each sounding record, after
which nothing sounds. -/
theorem silenceQuietsTheHorn : Obligations.SilenceQuietsTheHorn := by
  intro s hok
  refine ⟨fun p n hs hn c hc hdue => ?realert, fun ⟨hs, hm⟩ => ?silence⟩
  case realert =>
    obtain ⟨-, hp⟩ := notice?_some hn
    rw [exec_realertExpiry hs hn hc hdue]
    have heq := realertExpiry_eq s.work n
    have hchange := alters_change s.work p (f := fun m => { m with silenced := false, realert := none }) fun _ => rfl
    have hlook (q : Pt) := notice?_change s.work p (f := fun m => { m with silenced := false, realert := none }) (fun _ => rfl) q
    rw [hp] at heq
    have hsame := sameTable_settle s (s.work.realertExpiry n)
    have hst : (s.work.realertExpiry n).st = (s.work.change p fun m => { m with silenced := false, realert := none }).st := by
      rw [heq]; rfl
    have hnotice : (s.work.realertExpiry n).st.notice? p = some { n with silenced := false, realert := none, rev := s.nt.rev + 1 } := by
      rw [hst, hlook, if_pos rfl, State.work_st, hn]; rfl
    refine ⟨_, rfl, eventFrame_settle s (by rw [hst]; exact hchange.frame), ?_, ?_, ?_, ?_, ?_, fun q hq => ?_, ?_, ?_⟩
    · rw [hsame.pt, hst]; rfl
    · rw [settle_link, hst]; rfl
    · rw [hsame.nt, hst]; rfl
    · rw [hsame.nt, hst]; rfl
    · rw [hsame.nt, hst]; rfl
    · rw [hsame.notice?, hst, hlook, if_neg (by simpa using hq)]; rfl
    · rw [hsame.notice?, hnotice]
    · refine chirpFollows_settle s _ _ (by rw [hst]; rfl) fun m hmem _ halert _ => ?_
      have hok' : (s.work.realertExpiry n).st.TableOk := by rw [hst]; exact tableOk_change (w := s.work) hok p fun _ => rfl
      have hm := hok'.notice?_of_mem hmem
      rw [heq]
      dsimp only [State.work_alerts, State.work_chirps]
      split
      · simp
      · next hna =>
        refine iff_of_false (by simp) fun he => hna ?_
        rw [he, hnotice] at hm
        cases hm
        exact halert
  case silence =>
    have hexec : exec (.silence []) s = .next ((settle s s.work.silenceAll).replied 0x24 [] .ok []) := by
      show Host.Outcome.next (s.request _ _ (inMode s .run _)) = _
      rw [inMode_same s .run _ hm, request_act_replied hs]
    rw [hexec]
    have heq := silenceAll_eq s.work
    have hsame := sameTable_replied s s.work.silenceAll 0x24 [] .ok []
    have hquiet := steadyPattern_of_quiet (quiet_silenceAll (w := s.work) hok)
    have hchirp : (settle s s.work.silenceAll).snd.chirp = none := by
      rw [settle_chirp, heq]
      show State.chirpAfter _ [] = none
      rw [chirpAfter_nil]
      split <;> rfl
    refine ⟨_, rfl, eventFrame_replied ?frame _ _ _ _, rfl, ?_, ?_, ?_, ?_, hchirp, ?horn, ?_, fun p n hn => ?records⟩
    case frame =>
      obtain ⟨h1, h2, h3, h4, h5, h6, h7, h8, h9, h10⟩ := eventFrame_settle s
        (a := s.withSnd { s.snd with chirp := none }) (w := s.work.silenceAll) (by
          rw [heq]; exact ⟨rfl, rfl, rfl, fun _ => rfl, rfl, rfl, rfl, rfl, rfl, 0#8, by rw [BitVec.or_zero]; rfl⟩)
      exact ⟨h1, h2, h3, h4, h5, h6, h7, h8, h9, h10⟩
    case horn =>
      have hnone : (settle s s.work.silenceAll).steadyPattern = none := (settle_steadyPattern _ _).trans hquiet
      show (settle s s.work.silenceAll).hornPattern = .silent
      rw [State.hornPattern, hnone, hchirp]
      rfl
    case records =>
      obtain ⟨m, hm, hcase⟩ := notice?_silenceAll (w := s.work) hok hn
      refine ⟨m, (hsame.notice? p).trans hm, ?_⟩
      change if s.sounding n = true then m = { n.quieted s.snd.realertMin with rev := m.rev } else m = n at hcase
      split at hcase
      · next hsound =>
        rw [if_pos hsound]
        refine hcase.trans ?_
        simp only [Notice.quieted, Phase.unseen_iff, Countdown.start]
      · next hsound => rw [if_neg hsound]; exact hcase
    · rw [hsame.pt, heq]; rfl
    · rw [hsame.flags, heq]; rfl
    · rw [hsame.nt, heq]; exact pendSet_changeAll s.work _
    · rw [hsame.nt, heq]; exact arrival_changeAll s.work _
    · rw [hsame.nt, heq]
      refine (rev_changeAll s.work _).trans ?_
      rw [State.soundingScope, List.length_map]
      rfl

end Sys2Proof.Machine

/-! The return of a notice to view, and the Shelf List's events (R72 to R76, R83). -/

namespace Sys2Proof.Machine

/-! ## Return to view -/

/-- What withholds a point reads the Point Table and the Shelf List alone. -/
theorem withheld_congr {s t : State} (hpt : t.pt = s.pt) (hsh : t.shelf = s.shelf) (p : Pt) : t.withheld p = s.withheld p := by
  unfold State.withheld State.shelved State.shelfEntry? State.suppressed State.parentOf State.pointRec State.active
  rw [hpt, hsh]

/-- R83: a notice that another cause withholds, or that is seen, stands. -/
theorem returnToView_stands {w : Work} {p : Pt} {n : Notice} (hn : w.st.notice? p = some n)
    (h : w.st.withheld p = true ∨ n.phase.unseen = false) : w.returnToView p = w := by
  unfold Work.returnToView
  split
  · rfl
  · next hheld =>
    rw [Work.reannounce, hn]
    dsimp only
    rw [if_neg (by rw [h.resolve_left hheld]; decide)]

theorem returnToView_none {w : Work} {p : Pt} (hn : w.st.notice? p = none) : w.returnToView p = w := by
  rw [Work.returnToView, Work.reannounce, hn, ite_self]

/-- R83: what the return to view of an unseen notice leaves of its record. -/
def Notice.returned (rev : BitVec 16) (n : Notice) : Notice :=
  if n.silenced then { n with silenced := false, realert := none, rev := rev } else n

theorem returnToView_unseen {w : Work} {p : Pt} {n : Notice} (hn : w.st.notice? p = some n) (hheld : w.st.withheld p = false)
    (hunseen : n.phase.unseen = true) :
    w.returnToView p =
      { w with
        st := (w.st.withNt (if n.silenced then w.st.nt.change p fun m => { m with silenced := false, realert := none } else w.st.nt)).withLink
          { w.st.link with flags := w.st.link.flags ||| AttnEvent.newAlert.mask }
        alerts := if n.phase = .alert then p :: w.alerts else w.alerts } := by
  rw [Work.returnToView, if_neg (by rw [hheld]; decide), Work.reannounce, hn]
  dsimp only
  rw [if_pos hunseen]
  cases n.silenced <;> (split <;> rfl)

theorem notice?_returnToView_unseen {w : Work} {p : Pt} {n : Notice} (hn : w.st.notice? p = some n)
    (hheld : w.st.withheld p = false) (hunseen : n.phase.unseen = true) :
    (w.returnToView p).st.notice? p = some (n.returned (w.st.nt.rev + 1)) := by
  rw [returnToView_unseen hn hheld hunseen, Notice.returned]
  split
  · refine (notice?_change w p (f := fun m => { m with silenced := false, realert := none }) (fun _ => rfl) p).trans ?_
    rw [if_pos rfl, hn]
    rfl
  · exact hn

/-- R83: no return to view moves a phase, a condition or the Shelf List. -/
theorem phase?_returnToView (w : Work) (p q : Pt) : (w.returnToView p).st.phase? q = w.st.phase? q := by
  rw [State.phase?, State.notice?_eq, (nt_returnToView w p).1]
  split
  · rfl
  · split
    · exact phase?_change w p (f := fun m => { m with silenced := false, realert := none }) (fun _ => rfl) (fun _ => rfl) q
    · rfl

theorem withheld_returnToView (w : Work) (p q : Pt) : (w.returnToView p).st.withheld q = w.st.withheld q :=
  withheld_congr (nt_returnToView w p).2 (tableStep_returnToView w p).shelf q

/-- R48, R56, R83: of the ALERT notices in view a return announces its own. -/
theorem mem_alerts_returnToView (w : Work) (p : Pt) {q : Pt} (hphase : w.st.phase? q = some .alert)
    (hheld : w.st.withheld q = false) : q ∈ (w.returnToView p).alerts ↔ q ∈ w.alerts ∨ q = p := by
  by_cases hq : q = p
  · subst hq
    obtain ⟨n, hn, hph⟩ := Option.map_eq_some_iff.1 hphase
    rw [returnToView_unseen hn hheld (by rw [hph]; rfl)]
    simp [hph]
  · rw [(alters_returnToView w p).alerts q hq]
    simp [hq]

/-- Announcements of a return are of ALERT notices in view. -/
theorem flags_returnToView (w : Work) (p : Pt) :
    (w.returnToView p).st.link.flags = w.st.link.flags ∨
      (w.returnToView p).st.link.flags = w.st.link.flags ||| AttnEvent.newAlert.mask := by
  cases hn : w.st.notice? p with
  | none => rw [returnToView_none hn]; exact .inl rfl
  | some n =>
    by_cases h : w.st.withheld p = true ∨ n.phase.unseen = false
    · rw [returnToView_stands hn h]; exact .inl rfl
    · simp only [not_or, Bool.not_eq_true, Bool.not_eq_false] at h
      rw [returnToView_unseen hn h.1 h.2]
      exact .inr rfl

theorem flagged_of_mask {s : State} {f : Byte} {e : AttnEvent} (h : s.link.flags = f ||| e.mask) : s.flagged e = true := by
  have habsorb : (f ||| e.mask) &&& e.mask = e.mask := by
    ext i hi
    simpa using Or.inr
  simpa [State.flagged, h, habsorb] using e.mask_ne_zero

/-- R175: no operation of the table clears a flag. -/
theorem flagged_framed {a b : State} (h : Framed a b) {e : AttnEvent} (ha : a.flagged e = true) : b.flagged e = true := by
  obtain ⟨m, hm⟩ := h.link
  simp only [State.flagged, decide_eq_true_eq] at ha ⊢
  intro hb
  refine ha ?_
  rw [hm] at hb
  ext i hi
  have hbit := congrArg (fun x : Byte => x.getLsbD i) hb
  simp only [BitVec.getLsbD_and, BitVec.getLsbD_or] at hbit
  simp only [← BitVec.getLsbD_eq_getElem hi, BitVec.getLsbD_and]
  cases hf : a.link.flags.getLsbD i <;> simp_all

/-! ## SHELVE -/

theorem find?_insertEntry_of_ne {f : ShelfEntry → Bool} {e : ShelfEntry} (h : f e = false) (l : List ShelfEntry) :
    (insertEntry e l).find? f = l.find? f := by
  induction l with
  | nil => simp [insertEntry, h]
  | cons m rest ih =>
    unfold insertEntry
    split
    · rw [List.find?_cons, h]
    · rw [List.find?_cons, List.find?_cons, ih]

theorem find?_insertEntry_self {f : ShelfEntry → Bool} {e : ShelfEntry} (h : f e = true) {l : List ShelfEntry}
    (hl : ∀ m ∈ l, f m = false) : (insertEntry e l).find? f = some e := by
  induction l with
  | nil => simp [insertEntry, h]
  | cons m rest ih =>
    unfold insertEntry
    split
    · rw [List.find?_cons, h]
    · rw [List.find?_cons, hl m List.mem_cons_self, ih fun x hx => hl x (List.mem_cons_of_mem m hx)]

/-- R70: without a point's entry the others are found where they were. -/
theorem find?_dropEntry {u : UserPt} {q : Pt} (h : q ≠ UserPt.pt u) (l : List ShelfEntry) :
    (dropEntry u l).find? (fun e => UserPt.pt e.point = q) = l.find? fun e => UserPt.pt e.point = q := by
  rw [dropEntry, List.find?_filter]
  refine congrArg (fun f => List.find? f l) (funext fun e => ?_)
  by_cases he : e.point = u
  · have hne : UserPt.pt e.point ≠ q := by rw [he]; exact h.symm
    simp only [decide_eq_false hne, Bool.false_eq_true, and_false, decide_false]
  · simp only [decide_eq_true (show e.point ≠ u from he), true_and, Bool.decide_eq_true]

theorem point_ne_of_mem_dropEntry {u : UserPt} {l : List ShelfEntry} {e : ShelfEntry} (h : e ∈ dropEntry u l) : e.point ≠ u := by
  simpa [dropEntry] using (List.mem_filter.1 h).2

/-- R21: a point whose entry went is not shelved. -/
theorem find?_dropEntry_self (u : UserPt) (l : List ShelfEntry) :
    (dropEntry u l).find? (fun e => decide (UserPt.pt e.point = UserPt.pt u)) = none := by
  rw [List.find?_eq_none]
  intro e he hp
  exact point_ne_of_mem_dropEntry he (pt_inj.1 (of_decide_eq_true hp))

theorem exec_shelve {s : State} {p : Pt} {minutes : Nat} (hm : s.ctl.mode = .run) (h1 : 1 ≤ minutes) (h2 : minutes ≤ 240) :
    exec (.shelve [byteOf p.val, byteOf minutes]) s =
      .next (s.request 0x26 [byteOf p.val, byteOf minutes] (shelvePermitted s p minutes)) := by
  show Host.Outcome.next (s.request _ _ (shelveVerdict s _)) = _
  rw [shelveVerdict, parseShelve_payload p minutes h1 h2, inMode_same s .run _ hm]
  rfl

theorem shelvePermitted_some {s : State} {p : Pt} {u : UserPt} (hu : userOf p = some u) (minutes : Nat) :
    shelvePermitted s p minutes =
      if (s.pointRec u).shelveLimit < minutes then .refuse .notPermitted
      else if !s.shelved p && Config.shelfEntries ≤ s.shelf.length then .refuse .shelfFull
      else .act .ok (s.work.onState fun s => s.shelveFor u (minutes * 60)) := by
  rw [shelvePermitted, hu]

/-- Settles O46: permission, room, and then the entry alone; the view may lose the notice. -/
theorem shelveSetsTheEntry : Obligations.ShelveSetsTheEntry := by
  intro s p minutes ⟨hs, hm⟩ h1 h2 pl
  rw [exec_shelve hm h1 h2]
  refine ⟨fun hrefused => ?_, fun u hu hlimit hnone hfull => ?_, fun u hu hlimit hroom => ?_⟩
  · have hverdict : shelvePermitted s p minutes = .refuse .notPermitted := by
      cases hu : userOf p with
      | none => rw [shelvePermitted, hu]
      | some u =>
        have hlt : (s.pointRec u).shelveLimit < minutes := by
          rcases hrefused with h | h
          · rw [hu] at h; cases h
          · rwa [State.shelveLimitOf, hu] at h
        rw [shelvePermitted_some hu, if_pos hlt]
    rw [hverdict]
    exact congrArg _ (request_answer s 0x26 pl _ _ hs)
  · rw [State.shelveLimitOf, hu] at hlimit
    have hshelved : s.shelved p = false := by rw [State.shelved, hnone]; rfl
    rw [shelvePermitted_some hu, if_neg (not_lt.2 hlimit), hshelved, if_pos (by
      rw [Bool.not_false, Bool.true_and]; exact decide_eq_true hfull)]
    exact congrArg _ (request_answer s 0x26 pl _ _ hs)
  · rw [State.shelveLimitOf, hu] at hlimit
    have hfits : ¬(!s.shelved p && decide (Config.shelfEntries ≤ s.shelf.length)) = true := by
      simp only [Bool.and_eq_true, Bool.not_eq_true', decide_eq_true_eq, not_and, not_le, State.shelved]
      intro hnone
      rcases hroom with h | h
      · exact absurd (Option.isSome_eq_false_iff.1 hnone) (by simpa using h)
      · exact h
    rw [shelvePermitted_some hu, if_neg (not_lt.2 hlimit), if_neg hfits, request_act_replied hs]
    have hp := (userOf_eq_some_iff p u).1 hu
    have hsame := sameTable_replied s (s.work.onState fun s => s.shelveFor u (minutes * 60)) 0x26 pl .ok []
    have hent (q : Pt) := congrArg (fun l => l.find? fun e => UserPt.pt e.point = q) hsame.shelf
    have hframe := eventFrame_settle (a := s.shelveFor u (minutes * 60)) (w := s.work.onState fun s => s.shelveFor u (minutes * 60)) s (.refl _)
    refine ⟨_, rfl, ?_, rfl, ?_, fun q hq => ?_, ?_, hsame.nt, hsame.pt, hsame.flags, fun hok => ?_, ?_⟩
    · have hshelf := hsame.shelf
      rw [hshelf]
      exact eventFrame_replied hframe _ _ _ _
    · refine (hent p).trans ?_
      exact find?_insertEntry_self (by simp [hp]) fun m hm =>
        decide_eq_false fun he => point_ne_of_mem_dropEntry hm (pt_inj.1 (he.trans hp))
    · refine (hent q).trans ?_
      exact (find?_insertEntry_of_ne (by simpa [hp] using Ne.symm hq) _).trans (find?_dropEntry (by rw [← hp]; exact hq) _)
    · rw [hsame.shelf]
      exact (perm_insertEntry _ _).length_eq
    · exact windowFollows_recordRun _ (windowFollows_settle s _ _ hm rfl rfl (presented_points (hok.congr rfl rfl rfl))
        fun n _ _ => by simp)
    · exact chirpFollows_recordRun _ (chirpFollows_settle s _ _ rfl fun n _ _ _ _ => by simp)

/-! ## UNSHELVE and the expiry of an entry -/

/-- What the end of a shelving leaves: the point is not shelved, and its notice returns to view. -/
theorem returnMoves_endShelving {s t : State} {w : Work} {p : Pt} (hnt : w.st.nt = s.nt) (hpt : w.st.pt = s.pt)
    (hshelved : w.st.shelved p = false) (hsame : SameTable (w.returnToView p).st t) :
    t.pt = s.pt ∧ SameNotices s t [p] ∧ ReturnMoves s t p := by
  have hlook (q : Pt) : w.st.notice? q = s.notice? q := by rw [State.notice?, hnt]; rfl
  have hsupp : w.st.suppressed p = s.suppressed p := by
    unfold State.suppressed State.parentOf State.pointRec State.active
    rw [hpt]
  have hheld : w.st.withheld p = s.suppressed p := by rw [State.withheld, hshelved, hsupp, Bool.false_or]
  refine ⟨hsame.pt.trans ((nt_returnToView w p).2.trans hpt), fun q hq => ?_, fun n hn => ⟨fun hs hunseen => ?_, fun hstands => ?_⟩⟩
  · rw [hsame.notice?, (alters_returnToView w p).notice q (by simpa using hq), hlook]
  · rw [hsame.flagged, hsame.notice?, notice?_returnToView_unseen ((hlook p).trans hn) (hheld.trans hs) hunseen, hnt]
    refine ⟨?_, _, rfl, rfl⟩
    rw [returnToView_unseen ((hlook p).trans hn) (hheld.trans hs) hunseen]
    exact flagged_of_mask rfl
  · rw [hsame.notice?, returnToView_stands ((hlook p).trans hn) (by rw [hheld]; exact hstands)]
    exact (hlook p).trans hn

/-- The window and the burst after one return to view. -/
theorem follows_returnToView {s : State} {w : Work} {p : Pt} (hok : w.st.TableOk) (halerts : w.alerts = [])
    (hchirps : w.chirps = []) (hnotify : w.notify = false) (hpres : w.st.pres = s.pres) (hsnd : w.st.snd = s.snd) :
    (w.st.ctl.mode = .run → WindowFollows s (settle s (w.returnToView p)) fun q => q = p) ∧
      ChirpFollows s (settle s (w.returnToView p)) fun q => q = p := by
  have hok' := tableOk_returnToView hok p
  have hstep := tableStep_returnToView w p
  have hreach := alters_returnToView w p
  have hshown {n : Notice} (hn : n ∈ (w.returnToView p).st.nt.notices) (ha : n.phase = .alert)
      (hheld : (w.returnToView p).st.withheld n.point = false) : n.point ∈ (w.returnToView p).alerts ↔ n.point = p := by
    rw [withheld_returnToView] at hheld
    have hphase := State.phase?_of_notice? (hok'.notice?_of_mem hn)
    rw [phase?_returnToView, ha] at hphase
    rw [mem_alerts_returnToView w p hphase hheld, halerts]
    simp
  refine ⟨fun hr => windowFollows_settle s _ _ ?_ (hreach.notify.trans hnotify) (hstep.pres.trans hpres) (presented_points hok')
    fun n hn ha => ?_, chirpFollows_settle s _ _ (by rw [hstep.snd, hsnd]) fun n hn _ ha hsound => ?_⟩
  · rw [hstep.ctl]; exact hr
  · obtain ⟨hmem, hheld⟩ := mem_presented.1 hn
    exact hshown hmem ha hheld
  · rw [hreach.chirps, hchirps, List.append_nil]
    exact hshown hn ha (mem_presented.1 ((State.sounding_iff hn).1 hsound).1).2

theorem exec_unshelve {s : State} {p : Pt} (hm : s.ctl.mode = .run) :
    exec (.unshelve [byteOf p.val]) s =
      .next (s.request 0x27 [byteOf p.val] (match s.shelfEntry? p with
        | none => .refuse .notShelved
        | some e => .act .ok (s.work.endShelving e.point))) := by
  show Host.Outcome.next (s.request _ _ (unshelveVerdict s _)) = _
  rw [unshelveVerdict, parseOne_byteOf p (by decide), inMode_same s .run _ hm]
  rfl

theorem unshelve_refused {s : State} {p : Pt} (hs : s.inService = true) (hm : s.ctl.mode = .run) (h : s.shelfEntry? p = none) :
    exec (.unshelve [byteOf p.val]) s = .next (s.replied 0x27 [byteOf p.val] .notShelved []) := by
  rw [exec_unshelve hm, h]
  exact congrArg _ (request_answer s 0x27 _ _ _ hs)

/-- R70: the system points have no entry. -/
theorem shelfEntry?_system (s : State) {p : Pt} (h : userOf p = none) : s.shelfEntry? p = none := by
  rw [State.shelfEntry?, List.find?_eq_none]
  intro e _ hp
  exact pt_ne_of_userOf_none h e.point (of_decide_eq_true hp)

/-- R70, R71: the first entry is the only one of its point. -/
theorem dropEntry_first {s : State} (h : s.ShelfOk) {e : ShelfEntry} {rest : List ShelfEntry} (hs : s.shelf = e :: rest) :
    dropEntry e.point s.shelf = rest := by
  obtain ⟨-, hord, -⟩ := h
  rw [hs, List.pairwise_cons] at hord
  rw [hs, dropEntry, List.filter_cons, if_neg (by simp), List.filter_eq_self]
  intro m hm
  simpa using (hord.1 m hm).1.symm

/-- Settles O47: both ends of a shelving drop the entry and return the notice to view. -/
theorem shelvingEndsInAReturn : Obligations.ShelvingEndsInAReturn := by
  intro s u hok hshelf p
  refine ⟨fun ⟨hs, hm⟩ hnone => unshelve_refused (p := UserPt.pt u) hs hm hnone, fun ⟨hs, hm⟩ q hq => ?system,
    fun ⟨hs, hm⟩ hsome => ?unshelve, fun e rest hs hu hdue hserv => ?expiry⟩
  case system =>
    refine unshelve_refused hs hm (shelfEntry?_system s ?_)
    rcases hq with rfl | rfl <;> rfl
  case unshelve =>
    obtain ⟨e, he⟩ := Option.ne_none_iff_exists'.1 hsome
    have heu : e.point = u := pt_inj.1 (of_decide_eq_true (List.find?_some (p := fun e : ShelfEntry => decide (UserPt.pt e.point = UserPt.pt u)) he))
    have hexec := exec_unshelve (p := UserPt.pt u) hm
    rw [show s.shelfEntry? (UserPt.pt u) = some e from he] at hexec
    rw [show exec (.unshelve [byteOf u.val]) s = _ from hexec]
    dsimp only
    rw [heu, request_act_replied hs]
    have hdropped : (s.work.onState fun s => s.withShelf (dropEntry u s.shelf)).st.shelved (UserPt.pt u) = false := by
      show ((dropEntry u s.shelf).find? _).isSome = false
      rw [find?_dropEntry_self]
      rfl
    have hsame := sameTable_replied s (s.work.endShelving u) 0x27 [byteOf u.val] .ok []
    obtain ⟨hpt, hothers, hmoves⟩ := returnMoves_endShelving (s := s)
      (w := s.work.onState fun s => s.withShelf (dropEntry u s.shelf)) rfl rfl hdropped hsame
    obtain ⟨hwindow, hchirp⟩ := follows_returnToView (s := s) (p := UserPt.pt u)
      (w := s.work.onState fun s => s.withShelf (dropEntry u s.shelf)) (hok.congr rfl rfl rfl) rfl rfl rfl rfl rfl
    refine ⟨_, rfl, eventFrame_replied (eventFrame_settle s (alters_returnToView
      (s.work.onState fun s => s.withShelf (dropEntry u s.shelf)) _).frame) _ _ _ _, rfl, hpt, hothers, hmoves, ?_,
      windowFollows_recordRun _ (hwindow hm), chirpFollows_recordRun _ hchirp⟩
    rw [hsame.flags]
    exact flags_returnToView (s.work.onState fun s => s.withShelf (dropEntry u s.shelf)) _
  case expiry =>
    have hrest : dropEntry u s.shelf = rest := by rw [← hu]; exact dropEntry_first hshelf hs
    have hexec : exec (.shelfEntryExpiry u) s = .next (settle s (s.work.shelfExpiry u)) := by
      show Host.Outcome.next _ = _
      rw [if_pos (by simp [hserv, State.shelfDue, hs, hdue, hu])]
      rfl
    rw [hexec]
    have hdropped : ((s.work.onState fun s => s.withShelf (dropEntry u s.shelf)).flag .shelfExpiry).st.shelved (UserPt.pt u) = false := by
      show ((dropEntry u s.shelf).find? _).isSome = false
      rw [find?_dropEntry_self]
      rfl
    have hsame := sameTable_settle s (s.work.shelfExpiry u)
    obtain ⟨hpt, hothers, hmoves⟩ := returnMoves_endShelving (s := s)
      (w := (s.work.onState fun s => s.withShelf (dropEntry u s.shelf)).flag .shelfExpiry) rfl rfl hdropped hsame
    obtain ⟨hwindow, hchirp⟩ := follows_returnToView (s := s) (p := UserPt.pt u)
      (w := (s.work.onState fun s => s.withShelf (dropEntry u s.shelf)).flag .shelfExpiry) (hok.congr rfl rfl rfl) rfl rfl rfl rfl rfl
    have hflag := alters_flag (fun _ => False) (s.work.onState fun s => s.withShelf (dropEntry u s.shelf)) .shelfExpiry
    have hreturn := alters_returnToView ((s.work.onState fun s => s.withShelf (dropEntry u s.shelf)).flag .shelfExpiry) (UserPt.pt u)
    refine ⟨_, rfl, ?_, ?_, hpt, hothers, hmoves, ?_, hwindow, hchirp⟩
    · rw [← hrest]
      exact eventFrame_settle s (hflag.frame.trans hreturn.frame)
    · rw [settle_link]
      obtain ⟨m, hm⟩ := hreturn.frame.link
      show (Work.returnToView _ _).st.link.ran = _
      rw [hm]
      rfl
    · rw [hsame.flagged]
      exact flagged_framed hreturn.frame (flagged_of_mask rfl)

end Sys2Proof.Machine

/-! ACKNOWLEDGE, RESET and RETIRE (R23, R27, R28, R31, R66): what one ack, reset or retirement does, and a chain of them. -/

namespace Sys2Proof.Machine

/-! ## Markers: a raise that is not fresh, a withdrawal and an admission write none -/

theorem grantsFirstOut_stale {kind : RaiseKind} (h : kind.fresh = false) (s : State) (p : Pt) : s.grantsFirstOut kind p = false := by
  rw [State.grantsFirstOut, h]
  rfl

theorem groupRec_create_stale {kind : RaiseKind} (h : kind.fresh = false) (w : Work) (p : Pt) (phase : Phase) (f : NoticeField)
    (g : GroupNo) : (w.create kind p phase f).st.groupRec g = w.st.groupRec g := by
  rw [groupRec_create, if_neg]
  rintro ⟨hf, -⟩
  rw [State.newNotice, grantsFirstOut_stale h, Bool.and_false] at hf
  cases hf

theorem groupRec_raiseNotice_stale {kind : RaiseKind} (h : kind.fresh = false) (w : Work) (p : Pt) (f : NoticeField) (g : GroupNo) :
    (w.raiseNotice kind p f).st.groupRec g = w.st.groupRec g := by
  have hrefresh (n : Notice) : (w.refresh kind n f).st.groupRec g = w.st.groupRec g := by
    unfold Work.refresh
    split <;> rfl
  have hreRaise (n : Notice) : (w.reRaise kind n f).st.groupRec g = w.st.groupRec g := by
    rw [groupRec_reRaise, grantsFirstOut_stale h, if_neg (by simp)]
  unfold Work.raiseNotice
  split
  · exact groupRec_create_stale h w p _ f g
  · split
    · exact hrefresh _
    · exact hrefresh _
    · exact hreRaise _
    · exact hreRaise _

/-- R3: a system point is of no group. -/
theorem groupRec_setSystem (w : Work) {p : Pt} (hp : userOf p = none) (v : Bool) (g : GroupNo) :
    (w.setSystem p v).st.groupRec g = w.st.groupRec g := by
  have hclear (x : Work) : (x.clearSystem p).st.groupRec g = x.st.groupRec g := by
    unfold Work.clearSystem
    split
    · rfl
    · next n hn =>
      split
      · rfl
      · rw [groupRec_remove, (notice?_some hn).2, groupOf_of_userOf_none _ hp, if_neg (by simp)]
      · rfl
      · rfl
  unfold Work.setSystem
  split
  · rfl
  · dsimp only
    split
    · split
      · exact (groupRec_raiseNotice_stale rfl _ p .none g)
      · exact hclear _
    · rfl

theorem groupRec_pend (w : Work) (u : UserPt) (g : GroupNo) : (w.pend u).st.groupRec g = w.st.groupRec g := by
  unfold Work.pend
  dsimp only
  split
  · exact groupRec_setSystem (w.onNt fun t => { t with pendSet := insertPoint u t.pendSet }) rfl true g
  · rfl

theorem groupRec_offerRecord (w : Work) (g : GroupNo) : w.offerRecord.st.groupRec g = w.st.groupRec g := by
  cases h : w.st.arbiterPick with
  | none => rw [offerRecord_none h]
  | some u =>
    have hlet : (w.letIn u).st.groupRec g = w.st.groupRec g :=
      groupRec_create_stale rfl (w.onNt fun t => { t with pendSet := t.pendSet.filter fun v => v ≠ u }) _ _ _ g
    rw [offerRecord_some h]
    split
    · exact (groupRec_setSystem _ rfl false g).trans hlet
    · exact hlet

theorem groupRec_raiseUser_stale {kind : RaiseKind} (h : kind.fresh = false) (w : Work) (u : UserPt) (f : NoticeField) (g : GroupNo) :
    (w.raiseUser kind u f).st.groupRec g = w.st.groupRec g := by
  unfold Work.raiseUser
  split
  · exact groupRec_pend w u g
  · exact groupRec_raiseNotice_stale h w _ f g

/-- R40: a retirement takes the marker of a first-out notice. -/
theorem groupRec_retire (w : Work) (n : Notice) (g : GroupNo) :
    (w.retire n).st.groupRec g =
      if n.firstOut = true ∧ w.st.groupOf n.point = some g then { w.st.groupRec g with marker := none } else w.st.groupRec g := by
  rw [← groupRec_remove w n true g, Work.retire]
  split
  · exact groupRec_offerRecord _ g
  · rfl

theorem groupRec_acked (w : Work) (n : Notice) (phase : Phase) (g : GroupNo) :
    (w.acked n phase).st.groupRec g =
      if n.firstOut = true ∧ w.st.groupOf n.point = some g then { w.st.groupRec g with marker := none } else w.st.groupRec g :=
  groupRec_dropMarker w n g

/-! ## One retirement -/

theorem framed_retire {w : Work} (h : w.st.TableOk) (n : Notice) : Framed w.st (w.retire n).st := (touches_retire h n).frame

/-- R48: a retirement sets RETIRED. -/
theorem flagged_retire {w : Work} (h : w.st.TableOk) (n : Notice) : (w.retire n).st.flagged .retired = true := by
  have hremoved : (w.remove n true).st.flagged .retired = true := by
    refine flagged_of_mask (f := w.st.link.flags) ?_
    rw [Work.remove_eq]
    exact (AttnEvent.flags_or_maskIf _ _ _).trans (if_pos rfl)
  unfold Work.retire
  dsimp only
  split
  · exact flagged_framed (touches_offerRecord (by rw [pendSet_remove]; exact h.pendAscending) (pendApart_remove h.pendApart n true)).frame
      hremoved
  · exact hremoved

/-- R64: a retirement that admits nobody leaves every other record, and assigns no number. -/
theorem alters_retire_still {w : Work} {n : Notice} (h : userOf n.point = none ∨ w.st.nt.pendSet = []) :
    Alters (· = n.point) w (w.retire n) ∧ (w.retire n).st.nt.pendSet = w.st.nt.pendSet ∧
      (w.retire n).st.nt.rev = w.st.nt.rev + 1 := by
  rw [retire_still h]
  refine ⟨alters_remove w n true, pendSet_remove w n true, ?_⟩
  rw [Work.remove_eq]
  rfl

/-- R66: the record that an admission creates. -/
theorem record?_offerRecord {w : Work} {u : UserPt} (hpick : w.st.arbiterPick = some u) (hn : w.st.notice? (UserPt.pt u) = none) :
    w.offerRecord.st.record? (UserPt.pt u) =
      some (w.st.newNotice .admission (UserPt.pt u) (w.st.admissionPhase u) .none).timeless := by
  have hlet : (w.letIn u).st.record? (UserPt.pt u) =
      some (w.st.newNotice .admission (UserPt.pt u) (w.st.admissionPhase u) .none).timeless := by
    rw [Work.letIn, record?_create (w := w.onNt fun t => { t with pendSet := t.pendSet.filter fun v => v ≠ u }) hn, if_pos rfl]
    rfl
  rw [offerRecord_some hpick]
  split
  · rw [(touches_setSystem _ _ _).record _ (pt_ne_panelOverflow u)]
    exact hlet
  · exact hlet

/-! ## One ack, one reset -/

section
variable {w : Work} {p : Pt} {n : Notice} (hn : w.st.notice? p = some n)
include hn

theorem ack_indication (hc : w.st.classOf p = .indication) : w.ack p = w := by
  rw [Work.ack, hn]
  exact if_pos hc

theorem ack_eq (hc : w.st.classOf p ≠ .indication) :
    w.ack p =
      match n.phase with
      | .alert => w.acked n .standing
      | .standing => w
      | .fleeting => if w.st.seqOf p = .manual then w.acked n .returned else w.retire n
      | .returned => if w.st.seqOf p = .ringback then w.retire n else w := by
  rw [Work.ack, hn]
  exact if_neg hc

/-- R27: an ack retires a notice, moves it on, or leaves it. -/
theorem ack_cases : w.ack p = w ∨ w.ack p = w.retire n ∨ ∃ phase, w.ack p = w.acked n phase := by
  by_cases hc : w.st.classOf p = .indication
  · exact .inl (ack_indication hn hc)
  · rw [ack_eq hn hc]
    split
    · exact .inr (.inr ⟨_, rfl⟩)
    · exact .inl rfl
    · split
      · exact .inr (.inr ⟨_, rfl⟩)
      · exact .inr (.inl rfl)
    · split
      · exact .inr (.inl rfl)
      · exact .inl rfl

theorem resetAt_eq :
    w.resetAt p =
      if n.phase = .returned ∧ w.st.classOf p ≠ .indication ∧ w.st.seqOf p ≠ .auto then w.retire n else w := by
  rw [Work.resetAt, hn]

/-- R27: the record of an acknowledged notice. -/
theorem notice?_acked (phase : Phase) :
    (w.acked n phase).st.notice? p =
      some { n with phase := phase, firstOut := false, silenced := false, realert := none, rev := w.st.nt.rev + 1 } := by
  obtain ⟨-, rfl⟩ := notice?_some hn
  have hdrop : (w.dropMarker n).st.notice? n.point = some n ∧ (w.dropMarker n).st.nt.rev = w.st.nt.rev := by
    rw [Work.dropMarker_eq]; exact ⟨hn, rfl⟩
  rw [Work.acked, notice?_change _ n.point (by exact fun _ => rfl), if_pos rfl, hdrop.1, hdrop.2]
  rfl

end

/-- Where a state has a record but for its arrival number. -/
theorem holds_of_record? {t : State} {p : Pt} {n : Notice} (h : t.record? p = some n.timeless) :
    Holds (t.notice? p) fun m => m = { n with arrival := m.arrival } := by
  obtain ⟨m, hm, he⟩ := State.record?_eq_some_iff.1 h
  exact ⟨m, hm, Notice.timeless_eq_iff.1 he⟩

theorem record?_of_notice? {s : State} {p : Pt} {n : Notice} (h : s.notice? p = some n) : s.record? p = some n.timeless := by
  rw [State.record?, h]
  rfl

/-- R27, R29: the moves of an ack at a notice n, from the work that delivers it to a state that has its point's record. -/
theorem ackMoves_of {s t : State} {w : Work} {n n1 : Notice} (hok : w.st.TableOk) (hframe : Framed s w.st)
    (hn1 : w.st.notice? n.point = some n1) (hsame : n1.timeless = n.timeless)
    (hrec : t.record? n.point = (w.ack n.point).st.record? n.point)
    (hflags : ∀ e, (w.ack n.point).st.flagged e = true → t.flagged e = true) : AckMoves s t n := by
  have hclass : w.st.classOf n.point = s.classOf n.point := by
    unfold State.classOf; simp only [pointRec_framed hframe]
  have hseq : w.st.seqOf n.point = s.seqOf n.point := by
    unfold State.seqOf; simp only [pointRec_framed hframe]
  have hn1eq := Notice.timeless_eq_iff.1 hsame
  have hphase : n1.phase = n.phase := by rw [hn1eq]
  have hpt : n1.point = n.point := (notice?_some hn1).2
  have still (h : w.ack n.point = w) : Holds (t.notice? n.point) fun m => m = { n with arrival := m.arrival } := by
    rw [h, record?_of_notice? hn1, hsame] at hrec
    exact holds_of_record? hrec
  have moved {phase : Phase} (h : w.ack n.point = w.acked n1 phase) : Holds (t.notice? n.point) fun m =>
      m = { n with phase := phase, firstOut := false, silenced := false, realert := none, arrival := m.arrival, rev := m.rev } := by
    rw [h, record?_of_notice? (notice?_acked hn1 phase)] at hrec
    obtain ⟨m, hm, he⟩ := holds_of_record? hrec
    refine ⟨m, hm, ?_⟩
    rw [hn1eq] at he
    rw [he]
  have retired (h : w.ack n.point = w.retire n1) : t.notice? n.point = none ∧ t.flagged .retired = true := by
    refine ⟨?_, hflags _ (by rw [h]; exact flagged_retire hok n1)⟩
    rw [← State.record?_eq_none, hrec, h, State.record?_eq_none, ← hpt]
    exact notice?_retire hok (by rw [hpt]; exact hn1)
  refine ⟨fun hc => still (ack_indication hn1 (hclass.trans hc)), fun hc hp => moved ?_, fun hc hp => still ?_,
    fun hc hp hq => moved ?_, fun hc hp hq => retired ?_, fun hc hp hq => retired ?_, fun hc hp hq => still ?_⟩
  all_goals rw [ack_eq hn1 (by rw [hclass]; exact hc), hphase, hp, hseq]
  · exact if_pos hq
  · exact if_neg hq
  · exact if_pos hq
  · exact if_neg hq

/-! ## The requests -/

theorem exec_acknowledge {s : State} (hm : s.ctl.mode = .run) (c : Scope) :
    exec (.acknowledge c.payload) s =
      .next (s.request 0x22 c.payload
        (if s.scopeEmpty c then .refuse .noNotice else .act .ok (s.work.ackAll (s.scopePoints c s.ackable)))) := by
  have hlen : decide (c.payload.length = 2) = true := by cases c <;> rfl
  show Host.Outcome.next (s.request _ _ (acknowledgeVerdict s _)) = _
  rw [acknowledgeVerdict, parseScope_payload, inMode_same s .run _ hm, hlen]
  rfl

theorem exec_reset {s : State} (hm : s.ctl.mode = .run) (c : Scope) :
    exec (.reset c.payload) s =
      .next (s.request 0x23 c.payload
        (if s.scopeEmpty c then .refuse .noNotice else .act .ok (s.work.resetAll (s.scopePoints c Notice.resettable)))) := by
  have hlen : decide (c.payload.length = 2) = true := by cases c <;> rfl
  show Host.Outcome.next (s.request _ _ (resetVerdict s _)) = _
  rw [resetVerdict, parseScope_payload, inMode_same s .run _ hm, hlen]
  rfl

/-- Settles O40: one ack at the named notice; a notice that stays keeps its number, and with it every other record. -/
theorem acknowledgeReachesTheNamedNotice : Obligations.AcknowledgeReachesTheNamedNotice := by
  intro s p hok ⟨hs, hm⟩
  rw [show ([0x00, byteOf p.val] : List Byte) = (Scope.point p).payload from rfl, exec_acknowledge hm]
  refine ⟨fun hnone => ?_, fun n hn => ?_⟩
  · rw [if_pos (show s.scopeEmpty (.point p) = true by rw [State.scopeEmpty, hnone]; rfl)]
    exact congrArg _ (request_answer s 0x22 _ _ _ hs)
  · obtain ⟨-, rfl⟩ := notice?_some hn
    rw [if_neg (show ¬s.scopeEmpty (.point n.point) = true by rw [State.scopeEmpty, hn]; exact Bool.false_ne_true), request_act_replied hs]
    rw [show s.work.ackAll (s.scopePoints (.point n.point) s.ackable) = s.work.ack n.point from rfl]
    have hsame := sameTable_replied s (s.work.ack n.point) 0x22 (Scope.point n.point).payload .ok []
    have hstep := tableStep_ack s.work n.point
    have hreach := touches_ack (w := s.work) hok n.point
    have stays (h : Alters (· = n.point) s.work (s.work.ack n.point)) {t : State} (ht : SameTable (s.work.ack n.point).st t) :
        SameNotices s t [n.point] ∧ t.nt.arrival = s.nt.arrival :=
      ⟨fun q hq => (ht.notice? q).trans (h.notice q (by simpa using hq)), by rw [ht.nt]; exact h.arrival⟩
    refine ⟨_, rfl, eventFrame_replied (eventFrame_settle s hreach.frame) _ _ _ _, rfl, ?moves, fun q hq => ?conds, ?nobody, ?kept, ?marker⟩
    case moves =>
      exact ackMoves_of (w := s.work) hok (.refl s) hn rfl (record?_eq_of_notice?_eq (hsame.notice? n.point))
        fun e he => by rw [hsame.flagged]; exact he
    case conds => rw [hsame.active]; exact hstep.cond q (by simpa using hq)
    case nobody =>
      intro hempty
      have halters : Alters (· = n.point) s.work (s.work.ack n.point) ∧ (s.work.ack n.point).st.nt.pendSet = [] := by
        rcases ack_cases (w := s.work) hn with h | h | ⟨phase, h⟩ <;> rw [h]
        · exact ⟨.refl _ _, hempty⟩
        · obtain ⟨ha, hp, -⟩ := alters_retire_still (w := s.work) (n := n) (.inr hempty)
          exact ⟨ha, hp.trans hempty⟩
        · exact ⟨alters_acked s.work n phase, (pendSet_acked s.work n phase).trans hempty⟩
      obtain ⟨hothers, harrival⟩ := stays halters.1 hsame
      exact ⟨hothers, by rw [hsame.nt]; exact halters.2, harrival⟩
    case kept =>
      intro m hm'
      have hm'' := (hsame.notice? n.point).symm.trans hm'
      have halters : Alters (· = n.point) s.work (s.work.ack n.point) ∧ (s.work.ack n.point).st.nt.pendSet = s.nt.pendSet ∧
          m.arrival = n.arrival := by
        rcases ack_cases (w := s.work) hn with h | h | ⟨phase, h⟩ <;> rw [h] at hm'' ⊢
        · rw [State.work_st, hn] at hm''
          cases hm''
          exact ⟨.refl _ _, rfl, rfl⟩
        · rw [notice?_retire (w := s.work) hok hn] at hm''
          cases hm''
        · rw [notice?_acked (w := s.work) hn phase] at hm''
          cases hm''
          exact ⟨alters_acked s.work n phase, pendSet_acked s.work n phase, rfl⟩
      obtain ⟨hothers, harrival⟩ := stays halters.1 hsame
      exact ⟨halters.2.2, hothers, by rw [hsame.nt]; exact halters.2.1, harrival⟩
    case marker =>
      intro hf hphase hc g hg
      have hgone : (s.work.ack n.point).st.groupRec g = { s.groupRec g with marker := none } := by
        rw [ack_eq (w := s.work) hn hc]
        rcases hphase with hp | hp <;> rw [hp] <;> dsimp only
        · rw [groupRec_acked, if_pos ⟨hf, hg⟩]; rfl
        · split
          · rw [groupRec_acked, if_pos ⟨hf, hg⟩]; rfl
          · rw [groupRec_retire, if_pos ⟨hf, hg⟩]; rfl
      rw [hsame.groupRec, hgone]

/-- Settles O42: one reset, which retires a notice in RETURNED. -/
theorem resetRetiresAReturnedNotice : Obligations.ResetRetiresAReturnedNotice := by
  intro s p hok ⟨hs, hm⟩
  rw [show ([0x00, byteOf p.val] : List Byte) = (Scope.point p).payload from rfl, exec_reset hm]
  refine ⟨fun hnone => ?_, fun n hn => ?_⟩
  · rw [if_pos (show s.scopeEmpty (.point p) = true by rw [State.scopeEmpty, hnone]; rfl)]
    exact congrArg _ (request_answer s 0x23 _ _ _ hs)
  · obtain ⟨-, rfl⟩ := notice?_some hn
    rw [if_neg (show ¬s.scopeEmpty (.point n.point) = true by rw [State.scopeEmpty, hn]; exact Bool.false_ne_true), request_act_replied hs]
    rw [show s.work.resetAll (s.scopePoints (.point n.point) Notice.resettable) = s.work.resetAt n.point from rfl]
    have hsame := sameTable_replied s (s.work.resetAt n.point) 0x23 (Scope.point n.point).payload .ok []
    have heq := resetAt_eq (w := s.work) hn
    refine ⟨_, rfl, eventFrame_replied (eventFrame_settle s (touches_resetAt (w := s.work) hok n.point).frame) _ _ _ _, rfl,
      fun q hq => ?_, fun hp hc hq => ?_, fun hp => ?_⟩
    · rw [hsame.active]
      exact (tableStep_resetAt s.work n.point).cond q (by simpa using hq)
    · have hq' : s.seqOf n.point ≠ .auto := by rcases hq with hq | hq <;> (rw [hq]; decide)
      rw [if_pos ⟨hp, hc, hq'⟩] at heq
      refine ⟨?_, ?_⟩
      · rw [hsame.notice?, heq]
        exact notice?_retire (w := s.work) hok hn
      · rw [hsame.flagged, heq]
        exact flagged_retire (w := s.work) hok n
    · rw [if_neg fun h => hp h.1] at heq
      exact ⟨by rw [hsame.nt, heq]; rfl, by rw [hsame.flags, heq]; rfl, by rw [hsame.pt, heq]; rfl⟩

theorem exec_retire {s : State} (hm : s.ctl.mode = .run) (p : Pt) :
    exec (.retire [byteOf p.val]) s =
      .next (s.request 0x25 [byteOf p.val] (match s.notice? p with
        | none => .refuse .noNotice
        | some n => .act .ok (s.work.retire n))) := by
  show Host.Outcome.next (s.request _ _ (retireVerdict s _)) = _
  rw [retireVerdict, parseOne_byteOf p (by decide), inMode_same s .run _ hm]
  rfl

/-- Settles O44: one retirement; the arbiter's choice is the member that stands before every other. -/
theorem retireAdmitsTheMostUrgentPending : Obligations.RetireAdmitsTheMostUrgentPending := by
  intro s p hok ⟨hs, hm⟩
  rw [exec_retire hm]
  refine ⟨fun hnone => ?_, fun n hn => ?_⟩
  · rw [hnone]
    exact congrArg _ (request_answer s 0x25 _ _ _ hs)
  · rw [hn]
    obtain ⟨-, rfl⟩ := notice?_some hn
    dsimp only
    rw [request_act_replied hs]
    have hsame := sameTable_replied s (s.work.retire n) 0x25 [byteOf n.point.val] .ok []
    refine ⟨_, rfl, eventFrame_replied (eventFrame_settle s (framed_retire (w := s.work) hok n)) _ _ _ _, rfl, ?_, ?_,
      fun q hq => ?_, fun hf g hg => ?_, fun hstill => ?_, fun huser u hu hfirst => ?admission⟩
    · rw [hsame.notice?]
      exact notice?_retire (w := s.work) hok hn
    · rw [hsame.flagged]
      exact flagged_retire (w := s.work) hok n
    · rw [hsame.active]
      exact (tableStep_retire s.work n).cond q (by simpa using hq)
    · rw [hsame.groupRec, groupRec_retire, if_pos ⟨hf, hg⟩]
    · obtain ⟨halters, hpend, hrev⟩ := alters_retire_still (w := s.work) hstill
      refine ⟨by rw [hsame.nt]; exact hpend, fun q hq => ?_, by rw [hsame.nt]; exact hrev, by rw [hsame.nt]; exact halters.arrival⟩
      rw [hsame.notice?]
      exact halters.notice q (by simpa using hq)
    case admission =>
      have hretire : s.work.retire n = (s.work.remove n true).offerRecord := by
        rw [Work.retire]
        exact if_pos (Option.isSome_iff_ne_none.2 huser)
      have hframe := (alters_remove s.work n true).frame
      have hpendSet := pendSet_remove s.work n true
      have hapart := pendApart_remove (w := s.work) hok.pendApart n true
      have hcond : ∀ q, (s.work.remove n true).st.active q = s.active q := fun q => by rw [Work.remove_eq]; rfl
      have hlq := hframe.lq
      generalize s.work.remove n true = w at hretire hframe hpendSet hapart hcond hlq
      have hlevel (v : UserPt) : w.st.memberLevel v = (s.groupRec (s.pointRec v).group).level := by
        rw [State.memberLevel, pointRec_framed hframe, hframe.group]
        rfl
      have hpick : w.st.arbiterPick = some u := by
        cases hpick : w.st.arbiterPick with
        | none =>
          rw [State.arbiterPick_eq_none_iff, hpendSet] at hpick
          rw [show s.nt.pendSet = [] from hpick] at hu
          cases hu
        | some v =>
          obtain ⟨hv, hbest⟩ := State.arbiterPick_spec (by rw [hpendSet]; exact hok.pendAscending) hpick
          rw [hpendSet] at hv hbest
          by_contra hne
          have huv : u ≠ v := fun he => hne (by rw [he])
          have h1 := hbest u hu huv
          have h2 := hfirst v hv
          rw [hlevel, hlevel] at h1
          rcases h1 with h1 | ⟨h1, h1'⟩ <;> rcases h2 with h2 | ⟨h2, h2'⟩
          · omega
          · omega
          · omega
          · exact absurd (lt_of_lt_of_le h1' h2') (lt_irrefl _)
      have hrec := record?_offerRecord hpick (hapart u (by rw [hpendSet]; exact hu))
      have hpend := pendSet_offerRecord w
      rw [hpick, hpendSet] at hpend
      rw [hretire] at hsame
      refine ⟨by rw [hretire, hsame.nt]; exact hpend, ?_⟩
      obtain ⟨m, hm', he⟩ := State.record?_eq_some_iff.1 hrec
      have hadm : w.st.admissionPhase u = if (s.pointRec u).cls = .indication then .standing
          else if s.active (UserPt.pt u) = true then .alert else .fleeting := by
        rw [State.admissionPhase, pointRec_framed hframe, hcond]
        rfl
      have hchatter : w.st.inChatter (UserPt.pt u) = s.inChatter (UserPt.pt u) := by
        unfold State.inChatter State.sourceOf State.bindingLine State.lineRec
        rw [hlq]
        rfl
      refine ⟨m, by rw [hretire]; exact (hsame.notice? _).trans hm', ?_, congrArg Notice.count he, ?_, congrArg Notice.field he, ?_, ?_⟩
      · exact (congrArg Notice.phase he).trans hadm
      · refine (congrArg Notice.firstOut he).trans ?_
        show (_ && w.st.grantsFirstOut .admission _) = false
        rw [grantsFirstOut_stale rfl, Bool.and_false]
      · refine (congrArg Notice.level he).trans ?_
        show w.st.levelOf (UserPt.pt u) = _
        rw [State.levelOf, groupOf_pt]
        exact hlevel u
      · exact (congrArg Notice.chattering he).trans hchatter

/-! ## Scopes of many points -/

/-- R24: a selection of the live notices names the points of those selected. -/
theorem mem_points_filter {s : State} (h : s.TableOk) {n : Notice} (hn : n ∈ s.nt.notices) (keep : Notice → Bool) :
    n.point ∈ (s.nt.notices.filter keep).map (·.point) ↔ keep n = true := by
  rw [List.mem_map]
  constructor
  · rintro ⟨m, hm, hp⟩
    obtain ⟨hmem, hkeep⟩ := List.mem_filter.1 hm
    have he := h.notice?_of_mem hmem
    rw [hp, h.notice?_of_mem hn] at he
    cases he
    exact hkeep
  · exact fun hkeep => ⟨n, List.mem_filter.2 ⟨hn, hkeep⟩, rfl⟩

/-- In a chain of operations at distinct points, each finds the record of its point as it was, and leaves it as it stays. -/
theorem foldl_at {f : Work → Pt → Work} (hok : ∀ w p, w.st.TableOk → (f w p).st.TableOk)
    (hf : ∀ w p, w.st.TableOk → Touches (w.st.Reach p) w (f w p)) (hs : ∀ w p, Shrinks w (f w p)) {l : List Pt} (hl : l.Nodup)
    {w : Work} (hw : w.st.TableOk) {q : Pt} (hq : q ∈ l) (ho : q ≠ panelOverflow) (hwait : ¬w.st.Waits q) :
    ∃ x : Work, x.st.TableOk ∧ Framed w.st x.st ∧ x.st.record? q = w.st.record? q ∧
      (l.foldl f w).st.record? q = (f x q).st.record? q ∧ Framed (f x q).st (l.foldl f w).st := by
  obtain ⟨l1, l2, rfl⟩ := List.append_of_mem hq
  have hnot1 : q ∉ l1 := fun h => (List.nodup_append.1 hl).2.2 q h q List.mem_cons_self rfl
  have hnot2 : q ∉ l2 := (List.nodup_cons.1 (List.nodup_append.1 hl).2.1).1
  obtain ⟨htouch1, hshrink1⟩ := touches_foldl hok hf hs l1 w hw
  have hokx : (l1.foldl f w).st.TableOk := foldl_keeps (P := fun w => w.st.TableOk) hok l1 hw
  obtain ⟨htouch2, -⟩ := touches_foldl hok hf hs l2 (f (l1.foldl f w) q) (hok _ q hokx)
  refine ⟨l1.foldl f w, hokx, htouch1.frame, htouch1.record q ?_, ?_, ?_⟩
  · rintro (h | h | h)
    · exact hnot1 h
    · exact ho h
    · exact hwait h
  · rw [List.foldl_append, List.foldl_cons]
    refine htouch2.record q ?_
    rintro (h | h | ⟨u, hu, h⟩)
    · exact hnot2 h
    · exact ho h
    · exact hwait ⟨u, hshrink1 u (hs _ q u hu), h⟩
  · rw [List.foldl_append, List.foldl_cons]
    exact htouch2.frame

/-- A point that no operation of the chain names keeps its record. -/
theorem foldl_apart {f : Work → Pt → Work} (hok : ∀ w p, w.st.TableOk → (f w p).st.TableOk)
    (hf : ∀ w p, w.st.TableOk → Touches (w.st.Reach p) w (f w p)) (hs : ∀ w p, Shrinks w (f w p)) {l : List Pt}
    {w : Work} (hw : w.st.TableOk) {q : Pt} (hq : q ∉ l) (ho : q ≠ panelOverflow) (hwait : ¬w.st.Waits q) :
    (l.foldl f w).st.record? q = w.st.record? q :=
  (touches_foldl hok hf hs l w hw).1.record q (by
    rintro (h | h | h)
    · exact hq h
    · exact ho h
    · exact hwait h)

theorem not_waits_of_notice? {s : State} (h : s.TableOk) {q : Pt} {n : Notice} (hn : s.notice? q = some n) : ¬s.Waits q := by
  rintro ⟨u, hu, rfl⟩
  exact not_mem_pendSet_of_notice? h.pendApart hn hu

/-- R190: the scope of one group, or of all. -/
def groupScope (g : Option GroupNo) : Scope :=
  match g with
  | some x => .group x
  | none => .all

theorem scopePoints_groupScope (s : State) (g : Option GroupNo) (f : Notice → Bool) :
    s.scopePoints (groupScope g) f =
      (s.nt.notices.filter fun n => !s.withheld n.point && (decide (g = none ∨ s.groupOf n.point = g) && f n)).map (·.point) := by
  cases g with
  | none => simp [groupScope, State.scopePoints, State.presentedScope]
  | some x => simp [groupScope, State.scopePoints, State.presentedScope]

theorem mem_scopePoints {s : State} (h : s.TableOk) {n : Notice} (hn : n ∈ s.nt.notices) (g : Option GroupNo) (f : Notice → Bool) :
    n.point ∈ s.scopePoints (groupScope g) f ↔
      (s.withheld n.point = false ∧ (g = none ∨ s.groupOf n.point = g)) ∧ f n = true := by
  rw [scopePoints_groupScope, mem_points_filter h hn]
  simp [and_assoc]

theorem nodup_scopePoints {s : State} (h : s.TableOk) (g : Option GroupNo) (f : Notice → Bool) :
    (s.scopePoints (groupScope g) f).Nodup := by
  rw [scopePoints_groupScope]
  exact nodup_points h _

/-- Settles O41: the scope's points are distinct and do not wait, so that each operation finds the record as it was. -/
theorem scopedAcksAndResetsReachTheView : Obligations.ScopedAcksAndResetsReachTheView := by
  intro s g hok ⟨hs, hm⟩ pl seen
  have hpl : pl = (groupScope g).payload := by cases g <;> rfl
  have hfull : s.scopeEmpty (groupScope g) = false := by cases g <;> rfl
  rw [hpl, exec_acknowledge hm, exec_reset hm, hfull, if_neg Bool.false_ne_true, if_neg Bool.false_ne_true, request_act_replied hs,
    request_act_replied hs]
  refine ⟨?ack, ?reset⟩
  case ack =>
    have hsame := sameTable_replied s (s.work.ackAll (s.scopePoints (groupScope g) s.ackable)) 0x22 (groupScope g).payload .ok []
    have hchain := touches_foldl (fun _ p h => tableOk_ack h p) (fun _ p h => touches_ack h p) shrinks_ack
      (s.scopePoints (groupScope g) s.ackable) s.work hok
    refine ⟨_, rfl, eventFrame_replied (eventFrame_settle s hchain.1.frame) _ _ _ _, rfl, fun q hq => ?_, fun n hn ho => ?_⟩
    · rw [hsame.active]
      exact (tableStep_ackAll s.work _).cond q (by simpa using hq)
    · have hlook := hok.notice?_of_mem hn
      have hmem := mem_scopePoints hok hn g s.ackable
      rw [State.ackable_iff] at hmem
      refine ⟨fun hseen hphase => ?_, fun hout => ?_⟩
      · obtain ⟨x, hokx, hframe, hrec, hend, hflags⟩ := foldl_at (fun _ p h => tableOk_ack h p) (fun _ p h => touches_ack h p)
          shrinks_ack (nodup_scopePoints hok g s.ackable) (w := s.work) hok (hmem.2 ⟨hseen, hphase⟩) ho
          (not_waits_of_notice? hok hlook)
        rw [State.work_st, record?_of_notice? hlook] at hrec
        obtain ⟨n1, hn1, he⟩ := State.record?_eq_some_iff.1 hrec
        exact ackMoves_of hokx hframe hn1 he ((record?_eq_of_notice?_eq (hsame.notice? _)).trans hend)
          fun e hf => by rw [hsame.flagged]; exact flagged_framed hflags hf
      · have hrec := foldl_apart (fun _ p h => tableOk_ack h p) (fun _ p h => touches_ack h p) shrinks_ack (w := s.work) hok
          (fun hin => hout (hmem.1 hin)) ho (not_waits_of_notice? hok hlook)
        exact holds_of_record?_eq ((record?_eq_of_notice?_eq (hsame.notice? _)).trans hrec) hlook
  case reset =>
    have hsame := sameTable_replied s (s.work.resetAll (s.scopePoints (groupScope g) Notice.resettable)) 0x23
      (groupScope g).payload .ok []
    have hchain := touches_foldl (fun _ p h => tableOk_resetAt h p) (fun _ p h => touches_resetAt h p) shrinks_resetAt
      (s.scopePoints (groupScope g) Notice.resettable) s.work hok
    refine ⟨_, rfl, eventFrame_replied (eventFrame_settle s hchain.1.frame) _ _ _ _, rfl, fun q hq => ?_, fun n hn ho => ?_⟩
    · rw [hsame.active]
      exact (tableStep_resetAll s.work _).cond q (by simpa using hq)
    · have hlook := hok.notice?_of_mem hn
      have hmem := mem_scopePoints hok hn g Notice.resettable
      rw [Notice.resettable, decide_eq_true_eq] at hmem
      refine ⟨fun hseen hphase hc hq => ?_, fun hout => ?_⟩
      · obtain ⟨x, hokx, hframe, hrec, hend, hflags⟩ := foldl_at (fun _ p h => tableOk_resetAt h p)
          (fun _ p h => touches_resetAt h p) shrinks_resetAt (nodup_scopePoints hok g Notice.resettable) (w := s.work) hok
          (hmem.2 ⟨hseen, hphase⟩) ho (not_waits_of_notice? hok hlook)
        rw [State.work_st, record?_of_notice? hlook] at hrec
        obtain ⟨n1, hn1, he⟩ := State.record?_eq_some_iff.1 hrec
        have hpt := (notice?_some hn1).2
        have hreset : x.resetAt n.point = x.retire n1 := by
          have hclass : x.st.classOf n.point = s.classOf n.point := by unfold State.classOf; simp only [pointRec_framed hframe]; rfl
          have hseq : x.st.seqOf n.point = s.seqOf n.point := by unfold State.seqOf; simp only [pointRec_framed hframe]; rfl
          rw [resetAt_eq hn1, if_pos ⟨(congrArg Notice.phase he).trans hphase, by rw [hclass]; exact hc, by rw [hseq]; exact hq⟩]
        rw [hreset] at hend hflags
        refine ⟨?_, ?_⟩
        · rw [hsame.notice?, ← State.record?_eq_none]
          refine hend.trans (State.record?_eq_none.2 ?_)
          rw [← hpt]
          exact notice?_retire hokx (by rw [hpt]; exact hn1)
        · rw [hsame.flagged]
          exact flagged_framed hflags (flagged_retire hokx n1)
      · have hrec := foldl_apart (fun _ p h => tableOk_resetAt h p) (fun _ p h => touches_resetAt h p) shrinks_resetAt
          (w := s.work) hok (fun hin => hout (hmem.1 hin)) ho (not_waits_of_notice? hok hlook)
        exact holds_of_record?_eq ((record?_eq_of_notice?_eq (hsame.notice? _)).trans hrec) hlook

end Sys2Proof.Machine

/-! Proofs about leaving service: STOP. -/

namespace Sys2Proof.Machine

/-! ## A removal that nobody hears -/

/-- R30: a removal takes one record. -/
theorem length_removed {t : NoticeTable} (h : t.points.Pairwise (· < ·)) {p : Pt} (hp : p ∈ t.points) :
    t.notices.length = (t.removed p).notices.length + 1 := by
  have hnodup : t.points.Nodup := h.imp fun hlt => ne_of_lt hlt
  have herase : (t.removed p).points = t.points.erase p := by
    rw [t.points_removed, hnodup.erase_eq_filter]
    congr 1
    funext q
    by_cases hq : q = p <;> simp [hq]
  have hlen := congrArg List.length herase
  rw [List.length_erase_of_mem hp] at hlen
  simp only [NoticeTable.points, List.length_map] at hlen
  have hpos := List.length_pos_of_mem hp
  simp only [NoticeTable.points, List.length_map] at hpos
  omega

theorem removeQuietly_of_notice? {w : Work} {n : Notice} (h : w.st.notice? n.point = some n) :
    w.removeQuietly n.point =
      w.onState fun s => (s.withNt (s.nt.removed n.point)).withPt { s.pt with groups := (w.dropMarker n).st.pt.groups } := by
  rw [Work.removeQuietly, h]
  show w.remove n false = _
  rw [Work.remove_eq, AttnEvent.maskIf, if_neg (by decide), BitVec.or_zero]
  rfl

theorem removeQuietly_of_none {w : Work} {p : Pt} (h : w.st.notice? p = none) : w.removeQuietly p = w := by
  rw [Work.removeQuietly, h]

/-- What the removals of STOP keep: every condition, the Link, what the event has announced so far, and the sum of the table
revision and the number of notices, since each removal counts one revision (R36). -/
structure QuietStep (a b : Work) : Prop where
  table : TableStep a.st b.st
  cond : b.st.pt.cond = a.st.pt.cond
  link : b.st.link = a.st.link
  alerts : b.alerts = a.alerts
  chirps : b.chirps = a.chirps
  notify : b.notify = a.notify
  ascending : a.st.nt.points.Pairwise (· < ·) → b.st.nt.points.Pairwise (· < ·)
  rev : a.st.nt.points.Pairwise (· < ·) →
    b.st.nt.rev + BitVec.ofNat 16 b.st.nt.notices.length = a.st.nt.rev + BitVec.ofNat 16 a.st.nt.notices.length

theorem QuietStep.refl (w : Work) : QuietStep w w := ⟨.refl _, rfl, rfl, rfl, rfl, rfl, id, fun _ => rfl⟩

theorem QuietStep.trans {a b c : Work} (h : QuietStep a b) (k : QuietStep b c) : QuietStep a c :=
  ⟨h.table.trans k.table, k.cond.trans h.cond, k.link.trans h.link, k.alerts.trans h.alerts, k.chirps.trans h.chirps,
    k.notify.trans h.notify, fun ha => k.ascending (h.ascending ha), fun ha => (k.rev (h.ascending ha)).trans (h.rev ha)⟩

theorem quietStep_removeQuietly (w : Work) (p : Pt) : QuietStep w (w.removeQuietly p) := by
  cases hn : w.st.notice? p with
  | none => rw [removeQuietly_of_none hn]; exact .refl w
  | some n =>
    obtain ⟨hmem, rfl⟩ := notice?_some hn
    have htable : TableStep w.st (w.removeQuietly n.point).st := by
      rw [Work.removeQuietly, hn]
      exact tableStep_remove w n false
    have heq := removeQuietly_of_notice? hn
    rw [heq] at htable ⊢
    refine ⟨htable, rfl, rfl, rfl, rfl, rfl, fun hasc => ?_, fun hasc => ?_⟩
    · show (w.st.nt.removed n.point).points.Pairwise (· < ·)
      rw [NoticeTable.points_removed]
      exact hasc.filter _
    · show w.st.nt.rev + 1 + BitVec.ofNat 16 (w.st.nt.removed n.point).notices.length = _
      rw [length_removed hasc (List.mem_map_of_mem hmem), BitVec.ofNat_add]
      generalize BitVec.ofNat 16 (w.st.nt.removed n.point).notices.length = k
      show _ = w.st.nt.rev + (k + 1)
      rw [BitVec.add_assoc, BitVec.add_comm 1]

theorem quietStep_removeAll (l : List Pt) (w : Work) : QuietStep w (l.foldl Work.removeQuietly w) :=
  foldl_keeps (P := QuietStep w) (fun x p h => h.trans (quietStep_removeQuietly x p)) l (.refl w)

/-! ## STOP -/

theorem exec_stop {s : State} (h : s.inModeNow .run) : exec (.stop []) s = .next ((settle s s.work.stop).replied 0x3F [] .ok []) := by
  obtain ⟨hs, hm⟩ := h
  show Host.Outcome.next (s.request 0x3F [] (lengthThen true (inMode s .run (.act .ok s.work.stop)))) = _
  rw [inMode_same s .run _ hm]
  exact congrArg _ (request_act_replied hs _ _ _ _)

/-- The state that STOP has with its removals done: the same groups but for markers, the same conditions. -/
def Work.emptied (w : Work) : Work := ((w.onState State.emptyQueues).st.nt.notices.map (·.point)).foldl Work.removeQuietly (w.onState State.emptyQueues)

theorem quietStep_emptied (w : Work) : QuietStep (w.onState State.emptyQueues) w.emptied := quietStep_removeAll _ _

theorem stop_eq (w : Work) : w.stop = { w.emptied.onState fun s => s.clearSources.standDown with compose := true } := rfl

theorem groupRec_clearSources (s : State) (g : GroupNo) : s.clearSources.groupRec g = { s.groupRec g with marker := none } :=
  get_vmap _ _ _

/-- R144: an event of CONFIG leaves the window. -/
theorem settle_window_in_config (b : State) {w : Work} (h : w.st.ctl.mode = .config) :
    (settle b w).pres.top = w.st.pres.top ∧ (settle b w).pres.anchor = w.st.pres.anchor ∧
      (settle b w).pres.scrollTimer = w.st.pres.scrollTimer := by
  unfold settle
  simp only [h, reduceCtorEq, decide_false, Bool.and_false, Bool.false_eq_true, if_false]
  split
  · obtain ⟨htop, hanchor, htimer, -⟩ := requestComposition_window w.st
    exact ⟨htop, hanchor, htimer⟩
  · exact ⟨rfl, rfl, rfl⟩

/-- Settles O49: the removals count the revision and touch the markers alone; what STOP stores then leaves no source, no
marker and no sound. -/
theorem stopLeavesRun : Obligations.StopLeavesRun := by
  intro s hok hrun
  rw [exec_stop hrun]
  have hq := quietStep_emptied s.work
  have hnotices : s.work.emptied.st.nt.notices = [] := notices_removeAll _
  have hpend : s.work.emptied.st.nt.pendSet = [] := pendSet_removeAll _ _
  have hrev : s.work.emptied.st.nt.rev = s.nt.rev + BitVec.ofNat 16 s.nt.notices.length := by
    have h := hq.rev (List.pairwise_map.2 hok.1)
    rw [hnotices] at h
    exact (BitVec.add_zero _).symm.trans h
  have hsource (u : UserPt) : s.work.emptied.st.linkSourced u = s.linkSourced u := by
    show (s.work.emptied.st.bindingLine u).isNone = _
    unfold State.bindingLine State.lineRec
    rw [hq.table.lq]
    rfl
  have hactive (p : Pt) : s.work.emptied.st.active p = s.active p := by
    rw [State.active, hq.cond]; rfl
  have hcond (p : Pt) : ((settle s s.work.stop).replied 0x3F [] .ok []).active p = s.work.emptied.st.clearSources.active p := by
    show (settle s s.work.stop).active p = _
    rw [State.active, settle_pt]
    rfl
  have hsteady : s.work.stop.st.steadyPattern = none := steadyPattern_of_no_notices hnotices
  have hchirp : (settle s s.work.stop).snd.chirp = none := by
    rw [settle_chirp, State.chirpAfter, hsteady, show s.work.stop.alerts = [] from hq.alerts, show s.work.stop.chirps = [] from hq.chirps]
    rfl
  have hpres : s.work.stop.st.pres = { s.pres with top := 0, anchor := none, scrollTimer := none } := by
    show { s.work.emptied.st.pres with top := 0, anchor := none, scrollTimer := none } = _
    rw [hq.table.pres]
    rfl
  obtain ⟨htop, hanchor, htimer⟩ := settle_window_in_config s (w := s.work.stop) rfl
  rw [hpres] at htop hanchor htimer
  have hstep := presStep_settle s s.work.stop
  rw [hpres] at hstep
  obtain ⟨hidle, hready⟩ := settle_composer_requested (b := s) (w := s.work.stop) (.inr rfl)
  refine ⟨_, rfl, ?_, ?_, ?_, ?_, ?_, fun g => ?_, fun u => ?_, ?_, ?_, ?_, ?_, ?_, ?_, ?_, htop, hanchor, htimer, hidle, hready, ?_⟩
  · exact (settle_pending s s.work.stop).trans hq.table.pending
  · refine (settle_ctl s s.work.stop).trans ?_
    show { s.work.emptied.st.ctl with mode := .config } = _
    rw [hq.table.ctl]
    rfl
  · refine (settle_nt s s.work.stop).trans ?_
    show { s.work.emptied.st.nt with arrival := 1 } = _
    rw [← hnotices, ← hpend, ← hrev]
  · exact (settle_shelf s s.work.stop).trans (shelf_stop s.work)
  · exact (congrArg PointTable.points (settle_pt s s.work.stop)).trans hq.table.points
  · show (settle s s.work.stop).groupRec g = _
    rw [State.groupRec, settle_pt]
    refine (groupRec_clearSources s.work.emptied.st g).trans ?_
    rw [hq.table.group g]
    rfl
  · rw [hcond, active_clearSources, userOf_pt]
    show (s.work.emptied.st.active _ && _) = _
    rw [hactive, hsource]
  · rw [hcond]; exact active_clearSources _ _
  · rw [hcond]; exact active_clearSources _ _
  · exact (settle_lq s s.work.stop).trans hq.table.lq
  · exact (settle_kp s s.work.stop).trans hq.table.kp
  · refine (settle_snd s s.work.stop).trans ?_
    rw [hchirp]
    show { s.work.emptied.st.snd with chirp := none } = _
    rw [hq.table.snd]
    rfl
  · show (settle s s.work.stop).hornPattern = .silent
    rw [State.hornPattern, settle_steadyPattern, hsteady, hchirp]
    rfl
  · obtain ⟨h1, h2, h3, h4, h5, h6, h7, h8, h9, h10⟩ := hstep
    exact ⟨h1, h2, h3, h4, h5, h6, h7, h8, h9, h10⟩
  · have hlink : (settle s s.work.stop).link = { s.link with sup := .off, supTimer := none } := by
      rw [settle_link]
      exact hq.link
    exact congrArg (fun k : Link => { k with ran := some { kind := 0x3F, request := [], result := .ok, reply := [] } }) hlink

end Sys2Proof.Machine

/-! Proofs about raises of one kind for many points: group re-enable and START. -/

namespace Sys2Proof.Machine

/-- R24, R29, R38: the notice that a raise of a line-bound point creates with the condition as it stands, first-out excepted. -/
def State.FreshNotice (s : State) (u : UserPt) (m : Notice) : Prop :=
  m.phase = (s.pointRec u).cls.raisedPhase ∧ m.level = (s.groupRec (s.pointRec u).group).level ∧ m.count = 1 ∧ m.firstOut = false ∧
    m.silenced = false ∧ m.stale = false ∧ m.field = .none ∧ m.chattering = s.inChatter (UserPt.pt u)

/-- What a raise without an edge leaves at a point without a notice: the notice, or a member of the Pending Set. -/
def State.RaisedOrPending (s t : State) (u : UserPt) : Prop :=
  u ∈ t.nt.pendSet ∨ Holds (t.notice? (UserPt.pt u)) (s.FreshNotice u)

theorem level_framed {a b : State} (h : Framed a b) (g : GroupNo) : (b.groupRec g).level = (a.groupRec g).level := by rw [h.group g]

theorem inChatter_framed {a b : State} (h : Framed a b) (p : Pt) : b.inChatter p = a.inChatter p := by
  unfold State.inChatter State.sourceOf State.bindingLine State.lineRec
  rw [h.lq]

theorem freshNotice_framed {a b : State} (h : Framed a b) (u : UserPt) (m : Notice) : b.FreshNotice u m ↔ a.FreshNotice u m := by
  rw [State.FreshNotice, pointRec_framed h, level_framed h, inChatter_framed h]
  rfl

theorem raisedOrPending_framed {a b t : State} (h : Framed a b) (u : UserPt) : b.RaisedOrPending t u ↔ a.RaisedOrPending t u :=
  or_congr_right (exists_congr fun m => and_congr_right fun _ => freshNotice_framed h u m)

theorem mem_pendSet_pend (w : Work) (u v : UserPt) : v ∈ (w.pend u).st.nt.pendSet ↔ v = u ∨ v ∈ w.st.nt.pendSet := by
  rw [← mem_insertPoint]
  unfold Work.pend
  dsimp only
  split
  · show v ∈ ((w.onNt fun t => { t with pendSet := insertPoint u t.pendSet }).setSystem panelOverflow true).st.nt.pendSet ↔ _
    rw [(setSystem_keeps _ _ _).2]
    rfl
  · rfl

theorem freshNotice_newNotice {kind : RaiseKind} (hk : kind.fresh = false) (s : State) (u : UserPt) :
    s.FreshNotice u (s.newNotice kind (UserPt.pt u) (s.pointRec u).cls.raisedPhase .none) := by
  refine ⟨rfl, ?_, rfl, ?_, rfl, rfl, rfl, rfl⟩
  · show s.levelOf (UserPt.pt u) = _
    rw [State.levelOf, groupOf_pt]
  · show (_ && s.grantsFirstOut kind _) = false
    rw [grantsFirstOut_stale hk, Bool.and_false]

/-- FreshNotice reads no arrival number. -/
theorem freshNotice_timeless {s : State} {u : UserPt} {m n : Notice} (h : m.timeless = n.timeless) (hn : s.FreshNotice u n) :
    s.FreshNotice u m := by
  rw [Notice.timeless_eq_iff.1 h]
  exact hn

theorem raisedOrPending_raiseUser {kind : RaiseKind} (hk : kind.fresh = false) {w : Work} {u : UserPt}
    (h : w.st.notice? (UserPt.pt u) = none) : w.st.RaisedOrPending (w.raiseUser kind u .none).st u := by
  unfold Work.raiseUser
  split
  · exact .inl ((mem_pendSet_pend w u u).2 (.inl rfl))
  · right
    have hrec : (w.raiseNotice kind (UserPt.pt u) .none).st.record? (UserPt.pt u) =
        some (w.st.newNotice kind (UserPt.pt u) (w.st.pointRec u).cls.raisedPhase .none).timeless := by
      rw [Work.raiseNotice, h, classOf_pt]
      exact (record?_create h kind _ _ _).trans (if_pos rfl)
    obtain ⟨m, hm, he⟩ := State.record?_eq_some_iff.1 hrec
    exact ⟨m, hm, freshNotice_timeless he (freshNotice_newNotice hk w.st u)⟩

/-- RaisedOrPending reads the point's record and its membership alone. -/
theorem raisedOrPending_congr {s a b : State} {u : UserPt} (hrec : b.record? (UserPt.pt u) = a.record? (UserPt.pt u))
    (hpend : u ∈ b.nt.pendSet ↔ u ∈ a.nt.pendSet) (h : s.RaisedOrPending a u) : s.RaisedOrPending b u := by
  rcases h with h | ⟨n, hn, hfresh⟩
  · exact .inl (hpend.2 h)
  · obtain ⟨m, hm, he⟩ := State.record?_eq_some_iff.1 (hrec.trans (record?_of_notice? hn))
    exact .inr ⟨m, hm, freshNotice_timeless he hfresh⟩

/-- R17, R204: raises of distinct points without a notice reach those points and PANEL OVERFLOW. -/
theorem raiseEach_spec {kind : RaiseKind} (hk : kind.fresh = false) (us : List UserPt) (hus : us.Nodup) {w : Work}
    (hnone : ∀ u ∈ us, w.st.notice? (UserPt.pt u) = none) :
    Touches (fun q => q = panelOverflow ∨ ∃ u ∈ us, q = UserPt.pt u) w (Work.raiseEach kind w us) ∧
      (∀ g, (Work.raiseEach kind w us).st.groupRec g = w.st.groupRec g) ∧
      ∀ u ∈ us, w.st.RaisedOrPending (Work.raiseEach kind w us).st u := by
  induction us generalizing w with
  | nil => exact ⟨.refl _ w, fun _ => rfl, fun u hu => nomatch hu⟩
  | cons u rest ih =>
    obtain ⟨hfirst, hrest⟩ := List.nodup_cons.1 hus
    have hraise := touches_raiseUser w kind u .none
    have hother (v : UserPt) (hv : v ≠ u) : ¬(UserPt.pt v = UserPt.pt u ∨ UserPt.pt v = panelOverflow) :=
      not_or.2 ⟨fun he => hv (pt_inj.1 he), pt_ne_panelOverflow v⟩
    obtain ⟨htouch, hgroup, hall⟩ := ih hrest (w := w.raiseUser kind u .none) fun v hv => by
      rw [← State.record?_eq_none, hraise.record _ (hother v fun he => hfirst (he ▸ hv)), State.record?_eq_none]
      exact hnone v (List.mem_cons_of_mem u hv)
    refine ⟨(hraise.mono ?_).trans (htouch.mono ?_), fun g => (hgroup g).trans (groupRec_raiseUser_stale hk w u .none g), fun v hv => ?_⟩
    · rintro q (hq | hq)
      · exact .inr ⟨u, List.mem_cons_self, hq⟩
      · exact .inl hq
    · rintro q (hq | ⟨v, hv, hq⟩)
      · exact .inl hq
      · exact .inr ⟨v, List.mem_cons_of_mem u hv, hq⟩
    · rcases List.mem_cons.1 hv with rfl | hv
      · have haway : ¬(UserPt.pt v = panelOverflow ∨ ∃ u ∈ rest, UserPt.pt v = UserPt.pt u) :=
          not_or.2 ⟨pt_ne_panelOverflow v, fun ⟨x, hx, he⟩ => hfirst (pt_inj.1 he ▸ hx)⟩
        exact raisedOrPending_congr (htouch.record _ haway) (htouch.pend _ haway)
          (raisedOrPending_raiseUser hk (hnone v List.mem_cons_self))
      · exact (raisedOrPending_framed hraise.frame v).1 (hall v hv)

/-- What an event after such raises leaves at every point: the raised ones as raised, the others as they were. -/
theorem raisedOrPending_replied {s : State} {b : State} {w : Work} {u : UserPt} (h : s.RaisedOrPending w.st u) (kind : Byte) (pl : List Byte) :
    s.RaisedOrPending ((settle b w).replied kind pl .ok []) u :=
  have hsame := sameTable_replied b w kind pl .ok []
  raisedOrPending_congr (record?_eq_of_notice?_eq (hsame.notice? _)) (by rw [hsame.nt]) h

theorem nodup_lineActive (s : State) (f : UserPt → Bool) : (s.lineActive f).Nodup := (List.nodup_finRange 128).filter _

/-! ## Group re-enable -/

/-- R14, R16: a disabled group has no notice and no member of the Pending Set. -/
theorem empty_of_disabled {s : State} (hfits : s.Fits) {u : UserPt} (h : (s.groupRec (s.pointRec u).group).enabled = false) :
    s.notice? (UserPt.pt u) = none ∧ u ∉ s.nt.pendSet := by
  have hserved : ¬s.Served (UserPt.pt u) := by
    rw [served_pt, State.groupEnabled, h]
    decide
  refine ⟨?_, fun hu => hserved (hfits.pend u not_false hu).1⟩
  cases hn : s.notice? (UserPt.pt u) with
  | none => rfl
  | some n => exact absurd ((hfits.notice _ not_false).of_notice? hn).2 hserved

/-- Settles O31: the raises of the group's ACTIVE line-bound points, none of which has a notice or waits before. -/
theorem groupReEnableRaisesTheGroup : Obligations.GroupReEnableRaisesTheGroup := by
  intro s a hok hservice ⟨hs, hm⟩ h1 h2 hold hnew
  rw [exec_writeGroup h1 h2, request_act_replied hs, writeGroup_reEnables hm hold hnew]
  have hempty (u : UserPt) (hu : (s.pointRec u).group = a.group) : s.notice? (UserPt.pt u) = none ∧ u ∉ s.nt.pendSet :=
    empty_of_disabled ((serviceOk_iff hok).1 hservice) (by rw [hu]; exact hold)
  have hlist (u : UserPt) : u ∈ (s.putGroup a).lineActive (fun u => ((s.putGroup a).pointRec u).group = a.group) ↔
      (s.linkSourced u = false ∧ s.active (UserPt.pt u) = true) ∧ (s.pointRec u).group = a.group := by
    rw [mem_lineActive, and_assoc]
    simp only [decide_eq_true_eq]
    rfl
  obtain ⟨htouch, hgroup, hraised⟩ := raiseEach_spec (kind := .reEnable) rfl
    ((s.putGroup a).lineActive fun u => ((s.putGroup a).pointRec u).group = a.group) (nodup_lineActive _ _)
    (w := s.work.onState fun s => s.putGroup a) fun u hu => (hempty u ((hlist u).1 hu).2).1
  have hcond (q : Pt) (hq : q ≠ panelOverflow) := (tableStep_foldl (fun w u => w.raiseUser .reEnable u .none)
    (fun w u => tableStep_raiseUser w .reEnable u .none)
    ((s.putGroup a).lineActive fun u => ((s.putGroup a).pointRec u).group = a.group) (s.work.onState fun s => s.putGroup a)).cond q hq
  have hsame := sameTable_replied s ((s.work.onState fun s => s.putGroup a).reEnableGroup a.group) 0x12 a.payload .ok []
  have haway {u : UserPt} (hu : u ∉ (s.putGroup a).lineActive fun u => ((s.putGroup a).pointRec u).group = a.group) :
      ¬(UserPt.pt u = panelOverflow ∨
        ∃ v ∈ (s.putGroup a).lineActive (fun u => ((s.putGroup a).pointRec u).group = a.group), UserPt.pt u = UserPt.pt v) :=
    not_or.2 ⟨pt_ne_panelOverflow u, fun ⟨v, hv, he⟩ => hu (pt_inj.1 he ▸ hv)⟩
  have hframe := eventFrame_replied (eventFrame_settle s htouch.frame) 0x12 a.payload .ok []
  refine ⟨_, rfl, ?_, rfl, ?_, fun q hq => ?_, fun u hu => ?_, fun u n hu hn => ?_, fun u hu => ?_⟩
  · rw [← hnew]
    exact hframe
  · rw [hsame.groupRec]
    refine (congrArg GroupRec.marker (hgroup a.group)).trans ?_
    rw [show (s.work.onState fun s => s.putGroup a).st = s.putGroup a from rfl, groupRec_putGroup, if_pos rfl]
  · rw [hsame.active]
    exact hcond q (by simpa using hq)
  · split
    · next hactive =>
      have hfresh := raisedOrPending_replied (b := s) (hraised u ((hlist u).2 ⟨hactive, hu⟩)) 0x12 a.payload
      refine hfresh.imp id fun ⟨m, hm', hphase, hlevel, hcount, hfirst, hsil, hstale, hfield, hchat⟩ =>
        ⟨m, hm', hphase, ?_, hcount, hfirst, hsil, hstale, hfield, hchat⟩
      refine hlevel.trans ?_
      show ((s.putGroup a).groupRec (s.pointRec u).group).level = _
      rw [groupRec_putGroup, if_pos hu]
    · next hstill =>
      have hout := haway (u := u) fun hmem => hstill ((hlist u).1 hmem).1
      refine ⟨?_, ?_⟩
      · rw [hsame.notice?]
        exact State.record?_eq_none.1 ((htouch.record _ hout).trans (State.record?_eq_none.2 (hempty u hu).1))
      · rw [hsame.nt]
        exact fun h => (hempty u hu).2 ((htouch.pend u hout).1 h)
  · have hout := haway (u := u) fun hmem => hu ((hlist u).1 hmem).2
    exact holds_of_record? ((record?_eq_of_notice?_eq (hsame.notice? _)).trans ((htouch.record _ hout).trans (record?_of_notice? hn)))
  · rw [hsame.nt]
    have hout := haway (u := u) fun hmem => (hempty u ((hlist u).1 hmem).2).2 hu
    exact (htouch.pend u hout).2 hu

/-! ## START -/

theorem lowestOffender_eq_some {s : State} {u : UserPt} (hu : s.offending u = true) (hleast : ∀ v, s.offending v = true → u ≤ v) :
    s.lowestOffender = some u := by
  cases h : s.lowestOffender with
  | none => rw [offending_of_lowestOffender_none h u] at hu; cases hu
  | some v =>
    obtain ⟨hv, before, after, hsplit, hbefore⟩ := List.find?_eq_some_iff_append.1 h
    have hmem : u ∈ before ++ v :: after := hsplit ▸ List.mem_finRange u
    have hord : (before ++ v :: after).Pairwise (· < ·) := hsplit ▸ List.pairwise_lt_finRange 128
    rcases List.mem_append.1 hmem with hin | hin
    · have hno := hbefore u hin
      rw [hu] at hno
      cases hno
    · rcases List.mem_cons.1 hin with rfl | hin
      · rfl
      · have hlt := List.rel_of_pairwise_cons (List.pairwise_append.1 hord).2.1 hin
        exact absurd hlt (not_lt.2 (hleast v hv))

theorem lowestOffender_eq_none {s : State} (h : ∀ u, s.offending u = false) : s.lowestOffender = none :=
  List.find?_eq_none.2 fun u _ => by simp [h u]

theorem exec_start {s : State} (h : s.inModeNow .config) :
    exec (.start []) s = .next (match s.lowestOffender with
      | some u => s.replied 0x3E [] .invalidConfig [byteOf u.val]
      | none => (settle s s.work.start).replied 0x3E [] .ok []) := by
  obtain ⟨hs, hm⟩ := h
  show Host.Outcome.next (s.request 0x3E [] (lengthThen true (inMode s .config _))) = _
  rw [inMode_same s .config _ hm]
  cases s.lowestOffender with
  | some u => exact congrArg _ (request_answer s 0x3E [] _ _ hs)
  | none => exact congrArg _ (request_act_replied hs 0x3E [] _ _)

/-- R169: supervision as the setting has it. -/
def Link.superviseFromSetting (k : Link) : Link :=
  { k with
    sup := if k.supSetting = 0 then .off else .running
    supTimer := if k.supSetting = 0 then none else some { left := k.supSetting, due := false } }

theorem superviseFromStart_eq (k : Link) : k.superviseFromStart = k.superviseFromSetting := by
  unfold Link.superviseFromStart Link.superviseFromSetting
  split <;> rfl

/-- The state in which START raises. -/
def State.running (s : State) : State := s.withCtl { s.ctl with mode := .run }

/-- R144: a notification in RUN leaves the anchor at the window top. -/
theorem settle_anchor_of_notify {b : State} {w : Work} (hr : w.st.ctl.mode = .run) (hn : w.notify = true) :
    (settle b w).pres.anchor = (settle b w).presented[(settle b w).pres.top]?.map (·.point) := by
  rw [settle_presented]
  unfold settle
  simp only [hn, hr, decide_true, Bool.true_or, Bool.and_self, if_true]
  obtain ⟨htop, hanchor, -⟩ := requestComposition_window (w.st.anchorWindow w.alerts)
  show (w.st.anchorWindow w.alerts).requestComposition.pres.anchor =
    w.st.presented[(w.st.anchorWindow w.alerts).requestComposition.pres.top]?.map (·.point)
  rw [htop, hanchor]
  rfl

/-- Settles O48: the raises of START stand on an empty table. -/
theorem startEntersRun : Obligations.StartEntersRun := by
  intro s hok hconfig hrun
  rw [exec_start hrun]
  obtain ⟨hnotices, hpend, -⟩ := hconfig hrun.2
  refine ⟨fun u hu hleast => ?_, fun hall => ?_⟩
  · rw [lowestOffender_eq_some hu hleast]
  · rw [lowestOffender_eq_none hall]
    have hlist (u : UserPt) : u ∈ s.running.lineActive s.running.groupEnabled ↔
        s.bindingLine u ≠ none ∧ (s.groupRec (s.pointRec u).group).enabled = true ∧ s.active (UserPt.pt u) = true := by
      rw [mem_lineActive, ← Option.isSome_iff_ne_none, ← Option.isNone_eq_false_iff]
      exact and_congr_right fun _ => and_comm
    obtain ⟨htouch, hgroup, hraised⟩ := raiseEach_spec (kind := .startUp) rfl (s.running.lineActive s.running.groupEnabled)
      (nodup_lineActive _ _) (w := s.work.onState State.running) fun u _ => notice?_of_empty hnotices _
    have hcond (q : Pt) (hq : q ≠ panelOverflow) := (tableStep_foldl (fun w u => w.raiseUser .startUp u .none)
      (fun w u => tableStep_raiseUser w .startUp u .none) (s.running.lineActive s.running.groupEnabled)
      (s.work.onState State.running)).cond q hq
    have hsame := sameTable_replied s s.work.start 0x3E [] .ok []
    have hlink : s.work.start.st.link = { (Work.raiseEach .startUp (s.work.onState State.running)
        (s.running.lineActive s.running.groupEnabled)).st.link with
          sup := if s.link.supSetting = 0 then .off else .running
          supTimer := if s.link.supSetting = 0 then none else some { left := s.link.supSetting, due := false } } := by
      obtain ⟨m, hm⟩ := htouch.frame.link
      refine (superviseFromStart_eq _).trans ?_
      change Link.superviseFromSetting (Work.raiseEach .startUp (s.work.onState State.running)
        (s.running.lineActive s.running.groupEnabled)).st.link = _
      rw [hm]
      rfl
    obtain ⟨hidle, hready⟩ := settle_composer_requested (b := s) (w := s.work.start) (.inl rfl)
    refine ⟨_, rfl, eventFrame_replied (eventFrame_settle s ?frame) _ _ _ _, rfl, fun q hq => ?_, fun g => ?_, fun u => ?_, hidle,
      hready, settle_anchor_of_notify (start_steady s.work).1 rfl⟩
    case frame =>
      obtain ⟨f1, f2, f3, f4, f5, f6, f7, f8, f9, m, hm⟩ := htouch.frame
      refine ⟨f1, f2, f3, f4, f5, f6, f7, f8, f9, m, ?_⟩
      rw [hlink, hm]
      rfl
    · rw [hsame.active]
      exact hcond q (by simpa using hq)
    · rw [hsame.groupRec]
      exact hgroup g
    · split
      · next hactive =>
        have hstart : s.RaisedOrPending s.work.start.st u := raisedOrPending_congr rfl .rfl (hraised u ((hlist u).2 hactive))
        exact (raisedOrPending_replied (b := s) hstart 0x3E []).imp id
          fun ⟨m, hm', hphase, hlevel, hcount, hfirst, hsil, hstale, hfield, hchat⟩ =>
            ⟨m, hm', hphase, hcount, hfirst, hfield, hstale, hchat, hlevel⟩
      · next hstill =>
        have hout : ¬(UserPt.pt u = panelOverflow ∨ ∃ v ∈ s.running.lineActive s.running.groupEnabled, UserPt.pt u = UserPt.pt v) :=
          not_or.2 ⟨pt_ne_panelOverflow u, fun ⟨v, hv, he⟩ => hstill ((hlist u).1 (pt_inj.1 he ▸ hv))⟩
        refine ⟨?_, ?_⟩
        · rw [hsame.notice?]
          exact State.record?_eq_none.1 ((htouch.record _ hout).trans (State.record?_eq_none.2 (notice?_of_empty hnotices _)))
        · rw [hsame.nt]
          intro h
          have h' := (htouch.pend u hout).1 h
          rw [show (s.work.onState State.running).st.nt.pendSet = [] from hpend] at h'
          cases h'

end Sys2Proof.Machine

/-! Proofs about a condition that goes CLEAR: the clear of the point, the release of its children, and what the view and the
chirp make of both. -/

namespace Sys2Proof.Machine

/-- R56, R123: the window and the burst after an event whose list names exactly the ALERT notices in view that `shown` names. -/
theorem follows_of_alerts {s : State} {w : Work} {shown : Pt → Prop} (hok : w.st.TableOk) (hnotify : w.notify = false)
    (hchirps : w.chirps = []) (hpres : w.st.pres = s.pres) (hsnd : w.st.snd = s.snd)
    (h : ∀ q, w.st.phase? q = some .alert → w.st.withheld q = false → (q ∈ w.alerts ↔ shown q)) :
    (w.st.ctl.mode = .run → WindowFollows s (settle s w) shown) ∧ ChirpFollows s (settle s w) shown := by
  have halert {n : Notice} (hn : n ∈ w.st.nt.notices) (ha : n.phase = .alert) : w.st.phase? n.point = some .alert := by
    rw [State.phase?_of_notice? (hok.notice?_of_mem hn), ha]
  refine ⟨fun hr => windowFollows_settle s w shown hr hnotify hpres (presented_points hok) fun n hn ha => ?_,
    chirpFollows_settle s w shown (by rw [hsnd]) fun n hn _ ha hsound => ?_⟩
  · obtain ⟨hmem, hheld⟩ := mem_presented.1 hn
    exact h n.point (halert hmem ha) hheld
  · rw [hchirps, List.append_nil]
    exact h n.point (halert hn ha) (mem_presented.1 ((State.sounding_iff hn).1 hsound).1).2

/-! ## Releases -/

/-- R83, R84: what a return to view leaves of a point's notice. -/
def Released (a b : State) (q : Pt) : Prop :=
  ∀ n, a.notice? q = some n →
    (a.withheld q = false → n.phase.unseen = true →
      b.flagged .newAlert = true ∧
      Holds (b.notice? q) fun m => m = if n.silenced then { n with silenced := false, realert := none, rev := m.rev } else n) ∧
    (a.withheld q = true ∨ n.phase.unseen = false → b.notice? q = some n)

theorem released_returnToView (w : Work) (q : Pt) : Released w.st (w.returnToView q).st q := by
  intro n hn
  refine ⟨fun hheld hunseen => ⟨?_, _, notice?_returnToView_unseen hn hheld hunseen, ?_⟩, fun h => ?_⟩
  · rw [returnToView_unseen hn hheld hunseen]
    exact flagged_of_mask rfl
  · unfold Notice.returned
    split <;> rfl
  · rw [returnToView_stands hn h]
    exact hn

theorem Released.congr {a a' b b' : State} {q : Pt} (h : Released a b q) (hnotice : a'.notice? q = a.notice? q)
    (hheld : a'.withheld q = a.withheld q) (hnotice' : b'.notice? q = b.notice? q)
    (hflag : b.flagged .newAlert = true → b'.flagged .newAlert = true) : Released a' b' q := by
  intro n hn
  rw [hnotice] at hn
  rw [hheld, hnotice']
  obtain ⟨hreturns, hstands⟩ := h n hn
  exact ⟨fun h1 h2 => ⟨hflag (hreturns h1 h2).1, (hreturns h1 h2).2⟩, hstands⟩

theorem alters_releaseAll (w : Work) (l : List Pt) : Alters (· ∈ l) w (w.releaseAll l) := alters_foldl alters_returnToView l w

theorem pt_releaseAll (w : Work) (l : List Pt) : (w.releaseAll l).st.pt = w.st.pt :=
  foldl_keeps (P := fun x => x.st.pt = w.st.pt) (fun x p h => (nt_returnToView x p).2.trans h) l rfl

theorem phase?_releaseAll (w : Work) (l : List Pt) (q : Pt) : (w.releaseAll l).st.phase? q = w.st.phase? q :=
  foldl_keeps (P := fun x => x.st.phase? q = w.st.phase? q) (fun x p h => (phase?_returnToView x p q).trans h) l rfl

theorem pendSet_returnToView (w : Work) (p : Pt) : (w.returnToView p).st.nt.pendSet = w.st.nt.pendSet := by
  rw [(nt_returnToView w p).1]
  split
  · rfl
  · split <;> rfl

theorem pendSet_releaseAll (w : Work) (l : List Pt) : (w.releaseAll l).st.nt.pendSet = w.st.nt.pendSet :=
  foldl_keeps (P := fun x => x.st.nt.pendSet = w.st.nt.pendSet) (fun x p h => (pendSet_returnToView x p).trans h) l rfl

theorem withheld_releaseAll (w : Work) (l : List Pt) (q : Pt) : (w.releaseAll l).st.withheld q = w.st.withheld q :=
  withheld_congr (pt_releaseAll w l) (tableStep_releaseAll w l).shelf q

/-- R81: each release of a list of distinct points finds the notice and what withholds it as they were. -/
theorem released_releaseAll {l : List Pt} (hl : l.Nodup) (w : Work) {q : Pt} (hq : q ∈ l) : Released w.st (w.releaseAll l).st q := by
  obtain ⟨before, after, rfl⟩ := List.append_of_mem hq
  have hbefore : q ∉ before := fun h => (List.nodup_append.1 hl).2.2 q h q List.mem_cons_self rfl
  have hafter : q ∉ after := (List.nodup_cons.1 (List.nodup_append.1 hl).2.1).1
  have hsplit : w.releaseAll (before ++ q :: after) = ((w.releaseAll before).returnToView q).releaseAll after := by
    simp [Work.releaseAll]
  rw [hsplit]
  have hrest := alters_releaseAll ((w.releaseAll before).returnToView q) after
  exact (released_returnToView (w.releaseAll before) q).congr ((alters_releaseAll w before).notice q hbefore).symm
    (withheld_releaseAll w before q).symm (hrest.notice q hafter) (flagged_framed hrest.frame)

/-- R48, R56, R83: of the ALERT notices in view the releases announce their own. -/
theorem mem_alerts_releaseAll (l : List Pt) {w : Work} {q : Pt} (hphase : w.st.phase? q = some .alert)
    (hheld : w.st.withheld q = false) : q ∈ (w.releaseAll l).alerts ↔ q ∈ w.alerts ∨ q ∈ l := by
  induction l generalizing w with
  | nil => simp [Work.releaseAll]
  | cons p rest ih =>
    have hnext := ih (w := w.returnToView p) ((phase?_returnToView w p q).trans hphase) ((withheld_returnToView w p q).trans hheld)
    rw [mem_alerts_returnToView w p hphase hheld, or_assoc] at hnext
    rw [List.mem_cons]
    exact hnext

/-- R81: a child whose parent is CLEAR, released: of the causes that withhold it shelving is left. -/
theorem childReleased_of {s t x : State} {v : UserPt} (hsupp : x.suppressed (UserPt.pt v) = false)
    (ht : t.suppressed (UserPt.pt v) = false) (hshelf : x.shelf = s.shelf)
    (hrec : ∀ n, s.notice? (UserPt.pt v) = some n →
      x.record? (UserPt.pt v) = some n.timeless ∧ Released x t (UserPt.pt v)) : ChildReleased s t v := by
  have hheld : x.withheld (UserPt.pt v) = s.shelved (UserPt.pt v) := by
    rw [State.withheld, hsupp, Bool.or_false]
    unfold State.shelved State.shelfEntry?
    rw [hshelf]
  refine ⟨ht, fun n hn => ?_⟩
  obtain ⟨hsame, hrel⟩ := hrec n hn
  obtain ⟨m, hm, he⟩ := State.record?_eq_some_iff.1 hsame
  have he := Notice.timeless_eq_iff.1 he
  obtain ⟨hreturns, hstands⟩ := hrel m hm
  have hphase : m.phase = n.phase := by rw [he]
  have hsil : m.silenced = n.silenced := by rw [he]
  rw [hheld, hphase] at hreturns hstands
  refine ⟨fun hshown hunseen => ?_, fun h => ⟨m, hstands (h.imp id ?_), he⟩⟩
  · obtain ⟨hflag, m', hm', hm'eq⟩ := hreturns hshown (by rcases hunseen with h | h <;> rw [h] <;> rfl)
    refine ⟨hflag, m', hm', ?_⟩
    rw [hsil] at hm'eq
    beta_reduce
    split
    · next h =>
      rw [if_pos h, he] at hm'eq
      rw [hm'eq]
    · next h =>
      rw [if_neg h] at hm'eq
      rw [hm'eq]
      exact he
  · rintro (h | h) <;> rw [h] <;> rfl

/-! ## What an event announces on the clear side -/

theorem alerts_setSystem_clear (w : Work) (p : Pt) : (w.setSystem p false).alerts = w.alerts := by
  have hclear (x : Work) : (x.clearSystem p).alerts = x.alerts := by
    unfold Work.clearSystem
    split
    · rfl
    · split
      · rfl
      · rw [Work.remove_eq]
      · rfl
      · rfl
  unfold Work.setSystem
  split
  · rfl
  · dsimp only
    split
    · exact hclear _
    · rfl

theorem alerts_withdraw (w : Work) (gone : UserPt → Bool) : (w.withdraw gone).alerts = w.alerts := by
  unfold Work.withdraw
  split
  · dsimp only
    split
    · exact alerts_setSystem_clear _ _
    · rfl
  · rfl

/-- R56, R66: an admission announces the point it puts into ALERT. -/
theorem alerts_offerRecord {w : Work} {u : UserPt} (h : w.st.arbiterPick = some u) :
    w.offerRecord.alerts = if w.st.admissionPhase u = .alert then UserPt.pt u :: w.alerts else w.alerts := by
  have hlet : (w.letIn u).alerts = if w.st.admissionPhase u = .alert then UserPt.pt u :: w.alerts else w.alerts := by
    rw [Work.letIn, Work.create_eq]
    rfl
  rw [offerRecord_some h]
  split
  · rw [alerts_setSystem_clear, hlet]
  · exact hlet

/-- The ALERT notices that an event announces are those that are new to it. -/
def NewAnnounced (a b : Work) : Prop := ∀ q, b.st.phase? q = some .alert → (q ∈ b.alerts ↔ q ∈ a.alerts ∨ a.st.notice? q = none)

/-- An event that announces nothing creates no ALERT notice. -/
theorem newAnnounced_of_quiet {a b : Work} (halerts : b.alerts = a.alerts)
    (hlive : ∀ q, b.st.notice? q ≠ none → a.st.notice? q ≠ none) : NewAnnounced a b := by
  intro q hq
  have hne : a.st.notice? q ≠ none := hlive q fun h => by rw [State.phase?, h] at hq; cases hq
  rw [halerts]
  simp [hne]

theorem live_of_alters {P : Pt → Prop} {a b : Work} (h : Alters P a b) (hgone : ∀ q, P q → b.st.notice? q ≠ none → a.st.notice? q ≠ none)
    (q : Pt) (hq : b.st.notice? q ≠ none) : a.st.notice? q ≠ none := by
  by_cases hP : P q
  · exact hgone q hP hq
  · rwa [h.notice q hP] at hq

theorem live_setSystem_clear (w : Work) (p q : Pt) (hq : (w.setSystem p false).st.notice? q ≠ none) : w.st.notice? q ≠ none := by
  refine live_of_alters (alters_setSystem_clear w p) ?_ q hq
  rintro q rfl
  have hclear (x : Work) (hx : (x.clearSystem q).st.notice? q ≠ none) : x.st.notice? q ≠ none := by
    intro hnone
    rw [Work.clearSystem, hnone] at hx
    exact hx hnone
  unfold Work.setSystem
  split
  · exact id
  · dsimp only
    split
    · exact hclear (w.putCond q false)
    · exact id

theorem live_withdraw (w : Work) (gone : UserPt → Bool) (q : Pt) (hq : (w.withdraw gone).st.notice? q ≠ none) : w.st.notice? q ≠ none := by
  revert hq
  unfold Work.withdraw
  split
  · dsimp only
    split
    · exact live_setSystem_clear (w.onNt fun t => { t with pendSet := t.pendSet.filter fun u => !gone u }) panelOverflow q
    · exact id
  · exact id

theorem newAnnounced_offerRecord {w : Work} (hp : w.st.nt.pendSet.Pairwise (· < ·)) (ha : w.st.PendApart) :
    NewAnnounced w w.offerRecord := by
  cases h : w.st.arbiterPick with
  | none => rw [offerRecord_none h]; exact newAnnounced_of_quiet rfl fun _ => id
  | some u =>
    have hu := ha u (mem_of_arbiterPick hp h)
    intro q hq
    rw [alerts_offerRecord h]
    by_cases hqu : q = UserPt.pt u
    · subst hqu
      have hphase : w.st.admissionPhase u = .alert := by
        have hrec := record?_offerRecord h hu
        rw [State.phase?_eq_record?, hrec] at hq
        exact Option.some.inj hq
      rw [if_pos hphase]
      simp [hu]
    · have hlive : w.st.notice? q ≠ none := by
        have hlet : (w.letIn u).st.notice? q ≠ none → w.st.notice? q ≠ none := by
          have hrec := (touches_letIn hu).record q hqu
          rw [Ne, Ne, ← State.record?_eq_none, hrec, State.record?_eq_none]
          exact id
        have hnone : w.offerRecord.st.notice? q ≠ none := fun h => by rw [State.phase?, h] at hq; cases hq
        rw [offerRecord_some h] at hnone
        split at hnone
        · exact hlet (live_setSystem_clear _ _ _ hnone)
        · exact hlet hnone
      split <;> simp [hqu, hlive]

theorem newAnnounced_retire {w : Work} (h : w.st.TableOk) (n : Notice) : NewAnnounced w (w.retire n) := by
  have hremoved : (w.remove n true).alerts = w.alerts := by rw [Work.remove_eq]
  have hlive (q : Pt) (hq : (w.remove n true).st.notice? q ≠ none) : w.st.notice? q ≠ none :=
    live_of_alters (alters_remove w n true) (fun q hqn h => by rw [notice?_remove, if_pos hqn] at h; exact absurd rfl h) q hq
  by_cases hu : (userOf n.point).isSome = true
  · have hretire : w.retire n = (w.remove n true).offerRecord := by rw [Work.retire]; exact if_pos hu
    have hoffer := newAnnounced_offerRecord (w := w.remove n true) (by rw [pendSet_remove]; exact h.pendAscending)
      (pendApart_remove h.pendApart n true)
    rw [hretire]
    intro q hq
    rw [hoffer q hq, hremoved]
    refine or_congr_right ⟨fun hnone => ?_, fun hnone => ?_⟩
    · by_contra hne
      by_cases hqn : q = n.point
      · have haway := (touches_offerRecord (w := w.remove n true) (by rw [pendSet_remove]; exact h.pendAscending)
          (pendApart_remove h.pendApart n true)).record q
        have hnot : ¬(q = panelOverflow ∨ (w.remove n true).st.Waits q) := by
          rintro (he | ⟨v, hv, he⟩)
          · rw [← hqn, he] at hu; cases hu
          · rw [pendSet_remove] at hv
            exact hne (he ▸ h.pendApart v hv)
        have hgone := haway hnot
        rw [State.record?_eq_none.2 hnone] at hgone
        rw [State.phase?_eq_record?, hgone] at hq
        cases hq
      · rw [notice?_remove, if_neg hqn] at hnone
        exact hne hnone
    · by_contra hne
      exact hlive q hne hnone
  · have hretire : w.retire n = w.remove n true := by rw [Work.retire]; exact if_neg hu
    rw [hretire]
    exact newAnnounced_of_quiet hremoved hlive

/-- R26, R62, R66: on the clear of a point the new ALERT notices are those admitted. -/
theorem newAnnounced_clearUser {w : Work} (h : w.st.TableOk) (u : UserPt) : NewAnnounced w (w.clearUser u) := by
  have hchange (p : Pt) {f : Notice → Notice} (hf : ∀ n, (f n).point = n.point) : NewAnnounced w (w.change p f) :=
    newAnnounced_of_quiet rfl fun q hq hnone => hq (by
      rw [notice?_change w p hf]
      split
      · next he => rw [← he, hnone]; rfl
      · exact hnone)
  have hstill : NewAnnounced w w := newAnnounced_of_quiet rfl fun _ => id
  unfold Work.clearUser
  split
  · split
    · exact newAnnounced_of_quiet (alerts_withdraw w _) (live_withdraw w _)
    · exact hstill
  · split
    · exact newAnnounced_retire h _
    · split
      · exact hchange _ fun _ => rfl
      · split
        · exact newAnnounced_retire h _
        · exact hchange _ fun _ => rfl
      · exact hstill
      · exact hstill

/-! ## The clear of a user point -/

section
variable {w : Work} {u : UserPt} {n : Notice} (hn : w.st.notice? (UserPt.pt u) = some n)
include hn

theorem clearUser_indication (hc : (w.st.pointRec u).cls = .indication) : w.clearUser u = w.retire n := by
  rw [Work.clearUser, hn]
  exact if_pos hc

theorem clearUser_alert (hc : (w.st.pointRec u).cls ≠ .indication) (hp : n.phase = .alert) :
    w.clearUser u = w.change n.point fun m => { m with phase := .fleeting } := by
  rw [Work.clearUser, hn]
  dsimp only
  rw [if_neg hc, hp]

theorem clearUser_standing (hc : (w.st.pointRec u).cls ≠ .indication) (hp : n.phase = .standing) :
    w.clearUser u =
      if (w.st.pointRec u).seq = .auto then w.retire n else w.change n.point fun m => { m with phase := .returned } := by
  rw [Work.clearUser, hn]
  dsimp only
  rw [if_neg hc, hp]

/-- R26, R29: the clear at a notice, seen in a state that has the point's notice and the flags as the clear leaves them. -/
theorem clearMoves_clearUser {s t : State} (hok : w.st.TableOk) (hpoint : w.st.pointRec u = s.pointRec u)
    (hnotice : t.notice? (UserPt.pt u) = (w.clearUser u).st.notice? (UserPt.pt u))
    (hflag : ∀ e, (w.clearUser u).st.flagged e = true → t.flagged e = true) : ClearMoves s t u n := by
  obtain ⟨hmem, hpt⟩ := notice?_some hn
  have hchanged {ph : Phase} (h : w.clearUser u = w.change n.point fun m => { m with phase := ph }) :
      Holds (t.notice? (UserPt.pt u)) fun m => m = { n with phase := ph, rev := m.rev } := by
    refine ⟨{ n with phase := ph, rev := w.st.nt.rev + 1 }, ?_, rfl⟩
    rw [hnotice, h, notice?_change w n.point (f := fun m => { m with phase := ph }) (fun _ => rfl), if_pos hpt.symm,
      show w.st.notice? n.point = some n by rw [hpt]; exact hn]
    rfl
  have hretired (h : w.clearUser u = w.retire n) : t.notice? (UserPt.pt u) = none ∧ t.flagged .retired = true := by
    refine ⟨?_, hflag _ (by rw [h]; exact flagged_retire hok n)⟩
    rw [hnotice, h, ← hpt]
    exact notice?_retire hok (by rw [hpt]; exact hn)
  refine ⟨fun hc => ?_, fun hc hp => ?_, fun hc hp hq => ?_, fun hc hp hq => ?_⟩
  · exact hretired (clearUser_indication hn (by rw [hpoint]; exact hc))
  · exact hchanged (clearUser_alert hn (by rw [hpoint]; exact hc) hp)
  · exact hretired ((clearUser_standing hn (by rw [hpoint]; exact hc) hp).trans (if_pos (by rw [hpoint]; exact hq)))
  · exact hchanged ((clearUser_standing hn (by rw [hpoint]; exact hc) hp).trans (if_neg (by rw [hpoint]; exact hq)))

end

/-- R62: the clear of a point without a notice reaches its membership of the Pending Set alone. -/
theorem clearUser_of_none {w : Work} {u : UserPt} (hn : w.st.notice? (UserPt.pt u) = none) :
    w.clearUser u = if (w.st.pointRec u).cls = .indication then w.withdraw fun v => v = u else w := by
  rw [Work.clearUser, hn]

theorem notice?_clearUser_of_none {w : Work} {u : UserPt} (hn : w.st.notice? (UserPt.pt u) = none) :
    (w.clearUser u).st.notice? (UserPt.pt u) = none := by
  rw [clearUser_of_none hn]
  split
  · by_contra hne
    exact live_withdraw w _ _ hne hn
  · exact hn

/-- R63: the withdrawal that empties the Pending Set clears PANEL OVERFLOW. -/
theorem active_withdraw_emptied {w : Work} {gone : UserPt → Bool} (hsome : w.st.nt.pendSet.any gone = true)
    (hempty : (w.withdraw gone).st.nt.pendSet = []) : (w.withdraw gone).st.active panelOverflow = false := by
  rw [pendSet_withdraw] at hempty
  rw [Work.withdraw, if_pos hsome]
  dsimp only
  rw [if_pos (show (w.onNt fun t => { t with pendSet := t.pendSet.filter fun u => !gone u }).st.nt.pendSet = [] from hempty),
    (setSystem_keeps _ _ _).1, if_pos rfl]

/-- R62: the clear at a member of the Pending Set. -/
theorem pendingMoves_clearUser {w : Work} {u : UserPt} {s t : State} (hpoint : w.st.pointRec u = s.pointRec u)
    (hsame : w.st.notice? (UserPt.pt u) = none ↔ s.notice? (UserPt.pt u) = none) (hpend : w.st.nt.pendSet = s.nt.pendSet)
    (hnotice : t.notice? (UserPt.pt u) = (w.clearUser u).st.notice? (UserPt.pt u))
    (hpend' : t.nt.pendSet = (w.clearUser u).st.nt.pendSet)
    (hover : t.active panelOverflow = (w.clearUser u).st.active panelOverflow) : PendingMoves s t u := by
  intro hnone hu
  have hn := hsame.2 hnone
  have heq := clearUser_of_none hn
  refine ⟨hnotice.trans (notice?_clearUser_of_none hn), fun hc => ?_, fun hc => ?_⟩
  · rw [hpoint, if_pos hc] at heq
    rw [hpend', hover, heq]
    refine ⟨?_, fun hempty => active_withdraw_emptied ?_ hempty⟩
    · rw [pendSet_withdraw, hpend]
      simp
    · rw [hpend]
      simpa using hu
  · rw [hpoint, if_neg hc] at heq
    rw [hpend', heq, hpend]

/-! ## The condition goes CLEAR -/

theorem mem_liveChildren {s : State} {u : UserPt} {q : Pt} : q ∈ s.liveChildren u ↔ s.parentOf q = some u ∧ s.notice? q ≠ none := by
  rw [State.liveChildren, List.mem_map]
  constructor
  · rintro ⟨n, hn, rfl⟩
    obtain ⟨hmem, hp⟩ := List.mem_filter.1 hn
    exact ⟨of_decide_eq_true hp, fun hnone => notice?_none.1 hnone n hmem rfl⟩
  · rintro ⟨hp, hne⟩
    obtain ⟨n, hn⟩ := Option.ne_none_iff_exists'.1 hne
    obtain ⟨hmem, rfl⟩ := notice?_some hn
    exact ⟨n, List.mem_filter.2 ⟨hmem, decide_eq_true hp⟩, rfl⟩

theorem nodup_liveChildren {s : State} (h : s.TableOk) (u : UserPt) : (s.liveChildren u).Nodup := nodup_points h _

/-- The clear side of a moved condition: the clear at the point, if its edge is delivered, before any release. -/
def Work.cleared (w : Work) (u : UserPt) (edge : Bool) : Work := (w.putCond (UserPt.pt u) false).edged u false edge

theorem cleared_delivered {w : Work} {u : UserPt} (h : w.st.delivers (UserPt.pt u) = true) :
    w.cleared u true = (w.putCond (UserPt.pt u) false).clearUser u :=
  if_pos (by rw [Bool.true_and]; exact h)

theorem cleared_undelivered {w : Work} {u : UserPt} {edge : Bool} (h : edge = false ∨ w.st.delivers (UserPt.pt u) = false) :
    w.cleared u edge = w.putCond (UserPt.pt u) false := by
  refine if_neg ?_
  rw [show (w.putCond (UserPt.pt u) false).st.delivers (UserPt.pt u) = w.st.delivers (UserPt.pt u) from rfl]
  rcases h with h | h <;> simp [h]

theorem setUser_clear {w : Work} {u : UserPt} (h : w.st.active (UserPt.pt u) = true) (edge : Bool) :
    w.setUser u false edge =
      if w.st.ctl.mode = .run then (w.cleared u edge).releaseAll (w.st.liveChildren u) else w.cleared u edge :=
  setUser_changes (by rw [h]; decide) edge

theorem active_cleared (w : Work) (u : UserPt) (edge : Bool) (q : Pt) (ho : q ≠ panelOverflow) :
    (w.cleared u edge).st.active q = if q = UserPt.pt u then false else w.st.active q :=
  ((tableStep_edged (w.putCond (UserPt.pt u) false) u false edge).cond q ho).trans (active_putCond w _ q false)

section
variable {w : Work} (hok : w.st.TableOk) (u : UserPt) (edge : Bool)
include hok

theorem tableOk_cleared : (w.cleared u edge).st.TableOk := tableOk_edged (tableOk_putCond hok u false) u false edge

theorem touches_cleared : Touches (w.st.Reach (UserPt.pt u)) w (w.cleared u edge) := by
  have hput := (alters_putCond w (UserPt.pt u) false).toTouches.mono (Q := w.st.Reach (UserPt.pt u)) fun q hq => .inl hq
  unfold Work.cleared Work.edged
  split
  · exact hput.trans (touches_clearUser (w := w.putCond (UserPt.pt u) false) (tableOk_putCond hok u false) u)
  · exact hput

theorem newAnnounced_cleared : NewAnnounced w (w.cleared u edge) := by
  unfold Work.cleared Work.edged
  split
  · exact newAnnounced_clearUser (w := w.putCond (UserPt.pt u) false) (tableOk_putCond hok u false) u
  · exact newAnnounced_of_quiet rfl fun _ => id

/-- R81: a child keeps its record through the clear of its parent. -/
theorem record?_cleared_child {q : Pt} {n : Notice} (hq : q ≠ UserPt.pt u) (ho : userOf q ≠ none) (hn : w.st.notice? q = some n) :
    (w.cleared u edge).st.record? q = some n.timeless := by
  rw [(touches_cleared hok u edge).record q ?_]
  · exact record?_of_notice? hn
  · rintro (h | h | h)
    · exact hq h
    · exact ho (by rw [h]; rfl)
    · exact not_waits_of_notice? hok hn h

end

/-- R82: no point is its own parent's child, and no child has children. -/
theorem parentOf_self {s : State} {u : UserPt} (h : s.offending u = false) : s.parentOf (UserPt.pt u) ≠ some u := by
  rw [parentOf_pt]
  exact fun hp => ((offending_eq_false_iff s u).1 h u hp).1 rfl

/-- The clear of an ACTIVE condition, with the releases of RUN. -/
structure ClearedBy (w b : Work) (u : UserPt) (edge : Bool) : Prop where
  table : b.st.TableOk
  frame : Framed w.st b.st
  active : ∀ q, q ≠ panelOverflow → b.st.active q = if q = UserPt.pt u then false else w.st.active q
  overflow : b.st.active panelOverflow = (w.cleared u edge).st.active panelOverflow
  own : b.st.notice? (UserPt.pt u) = (w.cleared u edge).st.notice? (UserPt.pt u)
  pend : b.st.nt.pendSet = (w.cleared u edge).st.nt.pendSet
  flag : ∀ e, (w.cleared u edge).st.flagged e = true → b.st.flagged e = true
  chirps : b.chirps = w.chirps
  notify : b.notify = w.notify
  table_step : b.st.pres = w.st.pres ∧ b.st.snd = w.st.snd ∧ b.st.ctl = w.st.ctl

theorem clearedBy_setUser {w : Work} (hok : w.st.TableOk) {u : UserPt} (hself : w.st.ctl.mode = .run → w.st.offending u = false)
    (ha : w.st.active (UserPt.pt u) = true) (edge : Bool) : ClearedBy w (w.setUser u false edge) u edge := by
  have htouch := touches_cleared hok u edge
  have htable := tableOk_cleared hok u edge
  have hactive := active_cleared w u edge
  rw [setUser_clear ha]
  split
  · next hr =>
    have hrel := alters_releaseAll (w.cleared u edge) (w.st.liveChildren u)
    have hown : UserPt.pt u ∉ w.st.liveChildren u := fun h => parentOf_self (hself hr) (mem_liveChildren.1 h).1
    have hcond (q : Pt) : ((w.cleared u edge).releaseAll (w.st.liveChildren u)).st.active q = (w.cleared u edge).st.active q := by
      rw [State.active, pt_releaseAll]
      rfl
    have hframe := htouch.frame.trans hrel.frame
    exact ⟨tableOk_releaseAll htable _, hframe, fun q hq => (hcond q).trans (hactive q hq), hcond _, hrel.notice _ hown,
      pendSet_releaseAll _ _, fun e => flagged_framed hrel.frame, hrel.chirps.trans htouch.chirps, hrel.notify.trans htouch.notify,
      hframe.pres, hframe.snd, hframe.ctl⟩
  · exact ⟨htable, htouch.frame, hactive, rfl, rfl, rfl, fun _ => id, htouch.chirps, htouch.notify, htouch.frame.pres,
      htouch.frame.snd, htouch.frame.ctl⟩

theorem suppressed_child {s : State} {u v : UserPt} (hp : (s.pointRec v).parent = some u) :
    s.suppressed (UserPt.pt v) = s.active (UserPt.pt u) := by
  rw [State.suppressed, parentOf_pt, hp]

/-- R81: the releases of a clear, seen from a state with the children's notices, the parents and the shelf as before it. -/
theorem releaseMoves_setUser {w : Work} (hok : w.st.TableOk) {u : UserPt} (hr : w.st.ctl.mode = .run)
    (hself : w.st.offending u = false) (ha : w.st.active (UserPt.pt u) = true) (edge : Bool) {s t : State}
    (hparents : ∀ v, (s.pointRec v).parent = some u → (w.st.pointRec v).parent = some u) (hshelf : w.st.shelf = s.shelf)
    (hnotice : ∀ q, q ≠ UserPt.pt u → w.st.notice? q = s.notice? q) (ht : SameTable (w.setUser u false edge).st t) :
    ReleaseMoves s t u := by
  have hby := clearedBy_setUser hok (fun _ => hself) ha edge
  have hframe := (touches_cleared hok u edge).frame
  have hinactive : (w.cleared u edge).st.active (UserPt.pt u) = false := by
    rw [active_cleared w u edge _ (pt_ne_panelOverflow u), if_pos rfl]
  intro v hv
  have hparent := hparents v hv
  have hne : UserPt.pt v ≠ UserPt.pt u := fun he => parentOf_self hself (by rw [← he, parentOf_pt]; exact hparent)
  refine childReleased_of (x := (w.cleared u edge).st) ?_ ?_ (hframe.shelf.trans hshelf) fun n hn => ?_
  · rw [suppressed_child (u := u) (by rw [pointRec_framed hframe]; exact hparent), hinactive]
  · rw [suppressed_child (u := u) (by rw [State.pointRec, ht.pt]; exact (congrArg PointRec.parent (pointRec_framed hby.frame v)).trans hparent),
      ht.active, hby.active _ (pt_ne_panelOverflow u), if_pos rfl]
  · rw [← hnotice _ hne] at hn
    refine ⟨record?_cleared_child hok u edge hne (by rw [userOf_pt]; simp) hn, ?_⟩
    have hmem : UserPt.pt v ∈ w.st.liveChildren u := mem_liveChildren.2 ⟨by rw [parentOf_pt]; exact hparent, by rw [hn]; simp⟩
    have hset := setUser_clear ha edge
    rw [if_pos hr] at hset
    rw [hset] at ht
    exact (released_releaseAll (nodup_liveChildren hok u) (w.cleared u edge) hmem).congr rfl rfl (ht.notice? _)
      fun h => by rw [ht.flagged]; exact h

/-- R48, R56, R83: what the clear and the releases announce of the ALERT notices in view. -/
theorem mem_alerts_setUser_clear {w : Work} (hok : w.st.TableOk) {u : UserPt} (hr : w.st.ctl.mode = .run)
    (ha : w.st.active (UserPt.pt u) = true) (edge : Bool) {q : Pt} (hphase : (w.setUser u false edge).st.phase? q = some .alert)
    (hheld : (w.setUser u false edge).st.withheld q = false) :
    q ∈ (w.setUser u false edge).alerts ↔ q ∈ w.alerts ∨ w.st.parentOf q = some u ∨ w.st.notice? q = none := by
  rw [setUser_clear ha, if_pos hr] at hphase hheld ⊢
  rw [phase?_releaseAll] at hphase
  rw [withheld_releaseAll] at hheld
  rw [mem_alerts_releaseAll _ hphase hheld, newAnnounced_cleared hok u edge q hphase, mem_liveChildren]
  by_cases hn : w.st.notice? q = none <;> simp [hn]

end Sys2Proof.Machine

/-! Proofs about CLEAR, and about WRITE_POINT in RUN. -/

namespace Sys2Proof.Machine

/-- An event that does nothing leaves the state. -/
theorem settle_nothing {s : State} (h : s.ChirpOk) : settle s s.work = s :=
  settle_onState_still (fun v => v) h rfl (compositionDue_self s)

/-! ## CLEAR -/

theorem exec_clear {s : State} (h : s.inModeNow .run) (u : UserPt) :
    exec (.clear [byteOf u.val]) s = .next (match s.bindingLine u with
      | some _ => s.replied 0x21 [byteOf u.val] .sourceConflict []
      | none => (settle s (s.work.setUser u false true)).replied 0x21 [byteOf u.val] .ok []) := by
  obtain ⟨hs, hm⟩ := h
  show Host.Outcome.next (s.request 0x21 [byteOf u.val] (clearVerdict s [byteOf u.val])) = _
  rw [clearVerdict, parseOne_byteOf u (by decide), inMode_same s .run _ hm]
  show Host.Outcome.next (s.request 0x21 [byteOf u.val] (if (!(s.bindingLine u).isNone) = true then _ else _)) = _
  cases s.bindingLine u with
  | some l => exact congrArg _ (request_answer s 0x21 _ _ _ hs)
  | none => exact congrArg _ (request_act_replied hs 0x21 _ _ _)

theorem delivers_in_run {s : State} (hm : s.ctl.mode = .run) (u : UserPt) :
    s.delivers (UserPt.pt u) = (s.groupRec (s.pointRec u).group).enabled := by
  rw [State.delivers, groupOf_pt, hm]
  rfl

/-- Settles O39: the clear at the notice, then the releases. -/
theorem clearRequestClearsThePoint : Obligations.ClearRequestClearsThePoint := by
  intro s u hrun p
  rw [exec_clear hrun]
  refine ⟨fun hbound => ?_, fun hlink ha hchirp => ?_, fun hlink ha hok hpar => ?_⟩
  · obtain ⟨l, hl⟩ := Option.ne_none_iff_exists'.1 hbound
    rw [hl]
  · rw [hlink]
    dsimp only
    rw [setUser_same s.work u false true ha, settle_nothing hchirp]
  · rw [hlink]
    have hself := hpar hrun.2 u
    have hby := clearedBy_setUser (w := s.work) hok (fun _ => hself) ha true
    have hsame := sameTable_replied s (s.work.setUser u false true) 0x21 [byteOf u.val] .ok []
    have hputOk := tableOk_putCond (w := s.work) hok u false
    have hown := (hsame.notice? p).trans hby.own
    have hpend : ((settle s (s.work.setUser u false true)).replied 0x21 [byteOf u.val] .ok []).nt.pendSet =
        (s.work.cleared u true).st.nt.pendSet := (congrArg NoticeTable.pendSet hsame.nt).trans hby.pend
    have hflag (e : AttnEvent) (he : (s.work.cleared u true).st.flagged e = true) :
        ((settle s (s.work.setUser u false true)).replied 0x21 [byteOf u.val] .ok []).flagged e = true := by
      rw [hsame.flagged]
      exact hby.flag e he
    obtain ⟨hwindow, hburst⟩ := follows_of_alerts (s := s) (shown := fun q => s.parentOf q = some u ∨ s.notice? q = none) hby.table
      hby.notify hby.chirps hby.table_step.1 hby.table_step.2.1 fun q hq hheld =>
        (mem_alerts_setUser_clear (w := s.work) hok hrun.2 ha true hq hheld).trans (or_iff_right List.not_mem_nil)
    refine ⟨_, rfl, eventFrame_replied (eventFrame_settle s hby.frame) _ _ _ _, rfl, ?_, fun q hq => ?_, fun hen n hn => ?_, fun hen => ?_,
      fun hdis => ?_, fun hnone => ?_, ?_, windowFollows_recordRun _ (hwindow ?_), chirpFollows_recordRun _ hburst⟩
    · rw [hsame.active, hby.active _ (pt_ne_panelOverflow u), if_pos rfl]
    · simp only [List.mem_cons, List.not_mem_nil, or_false, not_or] at hq
      rw [hsame.active, hby.active _ hq.2, if_neg hq.1]
      rfl
    · rw [cleared_delivered ((delivers_in_run hrun.2 u).trans hen)] at hown hflag
      exact clearMoves_clearUser (w := s.work.putCond (UserPt.pt u) false) hn hputOk rfl hown hflag
    · have hover := (hsame.active panelOverflow).trans hby.overflow
      rw [cleared_delivered ((delivers_in_run hrun.2 u).trans hen)] at hown hpend hover
      exact pendingMoves_clearUser (w := s.work.putCond (UserPt.pt u) false) rfl .rfl rfl hown hpend hover
    · rw [cleared_undelivered (.inr ((delivers_in_run hrun.2 u).trans hdis))] at hown hpend
      exact ⟨fun n hn => hown.trans hn, hpend⟩
    · by_cases hd : s.delivers (UserPt.pt u) = true
      · rw [cleared_delivered hd] at hown
        exact hown.trans (notice?_clearUser_of_none (w := s.work.putCond (UserPt.pt u) false) hnone)
      · rw [cleared_undelivered (.inr (by simpa using hd))] at hown
        exact hown.trans hnone
    · exact releaseMoves_setUser (w := s.work) hok hrun.2 hself ha true (fun _ => id) rfl (fun _ _ => rfl) hsame
    · exact (congrArg Control.mode hby.table_step.2.2).trans hrun.2

/-! ## WRITE_POINT in RUN -/

theorem breaksParents_iff {s : State} {u : UserPt} {parent : Option UserPt} :
    s.breaksParents u parent = true ↔
      ∃ y, parent = some y ∧ (y = u ∨ (s.pointRec y).parent ≠ none ∨ ∃ z, z ≠ u ∧ (s.pointRec z).parent = some u) := by
  unfold State.breaksParents
  cases parent with
  | none => simp
  | some y => simp [Option.isSome_iff_ne_none, or_assoc]

theorem exec_writePoint_run {s : State} {u : UserPt} {r : PointRec} (h : s.inModeNow .run) (hlabel : r.label.length ≤ 16)
    (hchars : r.label.all printable = true) (hlimit : r.shelveLimit ≤ 240) :
    exec (.writePoint (pointPayload u r)) s = .next (
      if s.pointIsLive u = true then s.replied 0x10 (pointPayload u r) .pointLive []
      else if s.breaksParents u r.parent = true then s.replied 0x10 (pointPayload u r) .badParent []
      else (settle s (s.work.rewritePoint u r)).replied 0x10 (pointPayload u r) .ok []) := by
  obtain ⟨hs, hm⟩ := h
  show Host.Outcome.next (s.request 0x10 _ (writePointVerdict s _)) = _
  rw [writePointVerdict, pointLengthOk_pointPayload u r (by omega), parsePoint_pointPayload u r hlabel hchars hlimit,
    lengthThen_true, withArgs_some, hm]
  dsimp only
  split
  · exact congrArg _ (request_answer s 0x10 _ _ _ hs)
  · split
    · exact congrArg _ (request_answer s 0x10 _ _ _ hs)
    · exact congrArg _ (request_act_replied hs 0x10 _ _ _)

theorem pointIsLive_iff (s : State) (u : UserPt) :
    s.pointIsLive u = true ↔ s.notice? (UserPt.pt u) ≠ none ∨ u ∈ s.nt.pendSet ∨ s.shelfEntry? (UserPt.pt u) ≠ none := by
  simp [State.pointIsLive, State.shelved, Option.isSome_iff_ne_none, or_assoc]

theorem rewritePoint_eq (w : Work) (u : UserPt) (r : PointRec) :
    w.rewritePoint u r =
      if w.st.linkSourced u = true ∧ (w.st.groupRec r.group).enabled = false then
        (w.onState fun s => s.putPoint u r).setUser u false false
      else w.onState fun s => s.putPoint u r := by
  unfold Work.rewritePoint
  simp only [Bool.and_eq_true, Bool.not_eq_true']

/-- R13, R81: without an edge the clear of a point moves no notice before the releases. -/
theorem arrival_setUser_quiet {w : Work} {u : UserPt} (ha : w.st.active (UserPt.pt u) = true) :
    (w.setUser u false false).st.nt.arrival = w.st.nt.arrival ∧ (w.setUser u false false).st.nt.pendSet = w.st.nt.pendSet := by
  rw [setUser_clear ha, cleared_undelivered (.inl rfl)]
  split
  · exact ⟨(alters_releaseAll _ _).arrival, pendSet_releaseAll _ _⟩
  · exact ⟨rfl, rfl⟩

theorem active_setUser_quiet {w : Work} {u : UserPt} (ha : w.st.active (UserPt.pt u) = true) (q : Pt) :
    (w.setUser u false false).st.active q = if q = UserPt.pt u then false else w.st.active q := by
  rw [setUser_clear ha, cleared_undelivered (.inl rfl), ← active_putCond]
  split
  · rw [State.active, pt_releaseAll]
    rfl
  · rfl

theorem framed_setUser_quiet {w : Work} {u : UserPt} (ha : w.st.active (UserPt.pt u) = true) :
    Framed w.st (w.setUser u false false).st := by
  rw [setUser_clear ha, cleared_undelivered (.inl rfl)]
  split
  · exact (framed_putCond w _ false).trans (alters_releaseAll _ _).frame
  · exact framed_putCond w _ false

/-- Settles O28: the write moves one record, and with a condition that a disabled group cannot hold it releases the children. -/
theorem writePointInRunIsChecked : Obligations.WritePointInRunIsChecked := by
  intro s u r hrun hlabel hchars hlimit live breaks
  rw [exec_writePoint_run hrun hlabel hchars hlimit]
  refine ⟨fun hlive => ?_, fun hlive hbreaks => ?_, fun hlive hbreaks => ?_⟩
  · rw [if_pos ((pointIsLive_iff s u).2 hlive)]
  · rw [if_neg fun h => hlive ((pointIsLive_iff s u).1 h), if_pos (breaksParents_iff.2 hbreaks)]
  · rw [if_neg fun h => hlive ((pointIsLive_iff s u).1 h), if_neg fun h => hbreaks (breaksParents_iff.1 h)]
    have hsame := sameTable_replied s (s.work.rewritePoint u r) 0x10 (pointPayload u r) .ok []
    have heq := rewritePoint_eq s.work u r
    by_cases hmoves : (s.linkSourced u = true ∧ (s.groupRec r.group).enabled = false) ∧ s.active (UserPt.pt u) = true
    · obtain ⟨hcase, ha⟩ := hmoves
      rw [if_pos (show s.work.st.linkSourced u = true ∧ (s.work.st.groupRec r.group).enabled = false from hcase)] at heq
      rw [heq] at hsame ⊢
      have ha' : (s.work.onState fun s => s.putPoint u r).st.active (UserPt.pt u) = true := ha
      have hactive := active_setUser_quiet ha'
      obtain ⟨harrival, hpend⟩ := arrival_setUser_quiet ha'
      refine ⟨_, rfl, eventFrame_replied (eventFrame_settle s (framed_setUser_quiet ha')) _ _ _ _, rfl, ?_, fun q hq => ?_, ?_, ?_,
        fun hkept => ?_, fun hok hpar _ _ => ?_⟩
      · rw [if_pos hcase, hsame.active, hactive, if_pos rfl]
      · rw [hsame.active, hactive, if_neg (by simpa using hq)]
        rfl
      · rw [hsame.nt]; exact hpend
      · rw [hsame.nt]; exact harrival
      · rw [hsame.active, hactive, if_pos rfl, ha] at hkept
        cases hkept
      · have hok' : (s.work.onState fun s => s.putPoint u r).st.TableOk := hok.congr rfl rfl rfl
        have hself := hpar hrun.2 u
        have hself' := offending_putPoint (r := r) (by simpa using mt breaksParents_iff.1 hbreaks) (hpar hrun.2) u
        have hby := clearedBy_setUser (w := s.work.onState fun s => s.putPoint u r) hok' (fun _ => hself') ha' false
        have hparent (q : Pt) : (s.putPoint u r).parentOf q = some u ↔ s.parentOf q = some u := by
          by_cases hq : q = UserPt.pt u
          · rw [hq]
            exact iff_of_false (parentOf_self hself') (parentOf_self hself)
          · cases hu : userOf q with
            | none => simp [State.parentOf, hu]
            | some v =>
              rw [userOf_eq_some_iff] at hu
              subst hu
              rw [parentOf_pt, parentOf_pt, pointRec_putPoint, if_neg fun he => hq (by rw [he])]
        have hlive (q : Pt) (hq : ((s.work.onState fun s => s.putPoint u r).setUser u false false).st.phase? q = some .alert) :
            s.notice? q ≠ none := by
          rw [setUser_clear ha', if_pos (show (s.work.onState fun s => s.putPoint u r).st.ctl.mode = .run from hrun.2),
            phase?_releaseAll, cleared_undelivered (.inl rfl)] at hq
          intro hnone
          rw [State.phase?, show ((s.work.onState fun s => s.putPoint u r).putCond (UserPt.pt u) false).st.notice? q = s.notice? q from rfl,
            hnone] at hq
          cases hq
        obtain ⟨hwindow, hburst⟩ := follows_of_alerts (s := s) (shown := fun q => s.parentOf q = some u) hby.table hby.notify
          hby.chirps hby.table_step.1 hby.table_step.2.1 fun q hq hheld => by
            rw [mem_alerts_setUser_clear (w := s.work.onState fun s => s.putPoint u r) hok' hrun.2 ha' false hq hheld]
            exact (or_iff_right List.not_mem_nil).trans ((or_iff_left (hlive q hq)).trans (hparent q))
        refine ⟨releaseMoves_setUser (w := s.work.onState fun s => s.putPoint u r) hok' hrun.2 hself' ha' false (fun v hv => ?_) rfl
          (fun _ _ => rfl) hsame, windowFollows_recordRun _ (hwindow ((congrArg Control.mode hby.table_step.2.2).trans hrun.2)),
          chirpFollows_recordRun _ hburst⟩
        rw [← parentOf_pt] at hv ⊢
        exact (hparent _).2 hv
    · have hquiet : s.work.rewritePoint u r = s.work.onState fun s => s.putPoint u r := by
        rw [heq]
        split
        · next hcase =>
          have hclear : s.active (UserPt.pt u) = false := by simpa using fun ha => hmoves ⟨hcase, ha⟩
          exact setUser_same (s.work.onState fun s => s.putPoint u r) u false false hclear
        · rfl
      rw [hquiet] at hsame ⊢
      refine ⟨_, rfl, eventFrame_replied (eventFrame_settle s (a := s.putPoint u r)
        (w := s.work.onState fun s => s.putPoint u r) (.refl (s.putPoint u r))) _ _ _ _, rfl, ?_, fun q hq => hsame.active q, ?_, ?_,
        fun _ => hsame.nt, fun hok hpar ha hgone => ?_⟩
      · rw [hsame.active]
        split
        · next hcase =>
          show s.active (UserPt.pt u) = false
          simpa using fun ha => hmoves ⟨hcase, ha⟩
        · rfl
      · rw [hsame.nt]; rfl
      · rw [hsame.nt]; rfl
      · rw [hsame.active] at hgone
        exact absurd (ha.symm.trans hgone) (by decide)

end Sys2Proof.Machine

/-! Proofs about a fresh raise: RAISE, and what a line raise shares with it. -/

namespace Sys2Proof.Machine

/-! ## Arrival numbers -/

/-- R34, R35: the counter after it advanced. -/
theorem advance_arrival (t : NoticeTable) : t.advance.arrival = if t.arrival = 65535 then t.notices.length + 1 else t.arrival + 1 := by
  unfold NoticeTable.advance
  split <;> rfl

/-- R34, R35: the table advanced once, with the counter's value just given to the record of p. -/
theorem takesNumber_of_advance {s t : State} {T : NoticeTable} {p : Pt} {m : Notice} (hnt : t.nt = T.advance)
    (harrival : T.arrival = s.nt.arrival) (hm : noticeAt T.notices p = some m) (hmarr : m.arrival = s.nt.arrival)
    (hothers : ∀ q, q ≠ p → noticeAt T.notices q = s.notice? q)
    (hperm : T.notices.Perm (m :: s.nt.notices.filter fun x => x.point ≠ p)) : TakesNumber s t p := by
  have hlook (q : Pt) : t.notice? q = (noticeAt T.notices q).map fun n => { n with arrival := T.advancedArrival n } := by
    rw [State.notice?_eq, hnt, noticeAt_advance]
  have hcount : t.nt.arrival = _ := (congrArg NoticeTable.arrival hnt).trans (advance_arrival T)
  rw [harrival] at hcount
  refine ⟨fun hlow => ?_, fun hlast => ?_⟩
  · have hkeep (n : Notice) : T.advancedArrival n = n.arrival := if_neg (by omega)
    rw [if_neg (by omega)] at hcount
    refine ⟨hcount, ⟨m, ?_, hmarr⟩, fun q hq => ?_⟩
    · rw [hlook, hm, Option.map_some, hkeep]
    · rw [hlook, hothers q (by simpa using hq)]
      simp only [hkeep, Option.map_id']
  · have hrank (a : Nat) (ha : a ≤ 65535) : (T.notices.filter fun x => x.arrival < a).length =
        ((s.nt.notices.filter fun x => x.point ≠ p).filter fun x => x.arrival < a).length := by
      rw [(hperm.filter _).length_eq, List.filter_cons, if_neg (by simp; omega)]
    have hnew (n : Notice) : T.advancedArrival n = (T.notices.filter fun x => x.arrival < n.arrival).length + 1 :=
      if_pos (by omega)
    rw [if_pos hlast, hperm.length_eq, List.length_cons] at hcount
    refine ⟨hcount, fun hall => ⟨_, by rw [hlook, hm]; rfl, ?_⟩, fun q n hq hn => ⟨_, by rw [hlook, hothers q hq, hn]; rfl, rfl, fun hlow => ?_⟩⟩
    · show T.advancedArrival m = _
      rw [hnew, hmarr, hlast, hrank _ le_rfl, List.filter_eq_self.2 fun x hx => decide_eq_true (hall x hx)]
    · show T.advancedArrival n = _
      rw [hnew, hrank _ (by omega)]

/-- R24: a point without a notice has no record to leave out. -/
theorem filter_point_of_none {s : State} {p : Pt} (h : s.notice? p = none) : (s.nt.notices.filter fun x => x.point ≠ p) = s.nt.notices :=
  List.filter_eq_self.2 fun x hx => decide_eq_true (notice?_none.1 h x hx)

/-- R24: at most one record is of a point. -/
theorem filter_point_of_some {s : State} (h : s.TableOk) {p : Pt} {n : Notice} (hn : s.notice? p = some n) :
    (s.nt.notices.filter fun x => x.point = p) = [n] := by
  obtain ⟨hmem, rfl⟩ := notice?_some hn
  obtain ⟨before, after, hsplit⟩ := List.append_of_mem hmem
  have hord : s.nt.notices.Pairwise fun a b => a.point < b.point := h.1
  rw [hsplit] at hord ⊢
  obtain ⟨-, hrest, hcross⟩ := List.pairwise_append.1 hord
  have hbefore : (before.filter fun x => x.point = n.point) = [] :=
    List.filter_eq_nil_iff.2 fun x hx => by simpa using ne_of_lt (hcross x hx n List.mem_cons_self)
  have hafter : (after.filter fun x => x.point = n.point) = [] :=
    List.filter_eq_nil_iff.2 fun x hx => by simpa using ne_of_gt (List.rel_of_pairwise_cons hrest hx)
  rw [List.filter_append, List.filter_cons, if_pos (by simp), hbefore, hafter]
  rfl

/-- R25, R36: a change to the record of one point, beside the others. -/
theorem perm_change {s : State} (h : s.TableOk) {p : Pt} {n : Notice} (hn : s.notice? p = some n) (f : Notice → Notice) :
    (s.nt.change p f).notices.Perm ({ f n with rev := s.nt.rev + 1 } :: s.nt.notices.filter fun x => x.point ≠ p) := by
  have hsplit := (List.filter_append_perm (fun x : Notice => decide (x.point = p)) s.nt.notices).symm.map
    fun x => if x.point = p then { f x with rev := s.nt.rev + 1 } else x
  refine List.Perm.trans hsplit ?_
  rw [List.map_append, filter_point_of_some h hn, List.map_singleton, if_pos (notice?_some hn).2, List.singleton_append]
  refine List.Perm.cons _ (.of_eq ?_)
  have hnot : (fun x : Notice => !decide (x.point = p)) = fun x => decide (x.point ≠ p) := by funext x; simp
  rw [hnot]
  refine (List.map_congr_left fun x hx => ?_).trans (List.map_id' _)
  exact if_neg (by simpa using (List.mem_filter.1 hx).2)

/-! ## First-out -/

/-- R38: the grant read at a raise, in a state that differs by the point's own notice and condition. -/
theorem grantsFirstOut_iff {kind : RaiseKind} (hk : kind.fresh = true) {s x : State} {u : UserPt}
    (hpoints : ∀ v, x.pointRec v = s.pointRec v) (hgroup : ∀ g, x.groupRec g = s.groupRec g)
    (hactive : ∀ q, q ≠ UserPt.pt u → x.active q = s.active q) (hself : s.parentOf (UserPt.pt u) ≠ some u)
    (hquiet : ∀ g, x.groupQuiet g (UserPt.pt u) = s.groupQuiet g (UserPt.pt u)) :
    x.grantsFirstOut kind (UserPt.pt u) = true ↔ FirstOutGrant s u := by
  have hsupp : x.suppressed (UserPt.pt u) = s.suppressed (UserPt.pt u) := by
    rw [State.suppressed, State.suppressed, parentOf_pt, parentOf_pt, hpoints]
    rw [parentOf_pt] at hself
    cases hp : (s.pointRec u).parent with
    | none => rfl
    | some v => exact hactive _ fun he => hself (by rw [hp, pt_inj.1 he])
  unfold State.grantsFirstOut FirstOutGrant
  rw [hk, hsupp, classOf_pt, groupOf_pt, hpoints]
  dsimp only
  rw [hgroup, hquiet]
  simp only [Bool.true_and, Bool.and_eq_true, decide_eq_true_eq, Option.isNone_iff_eq_none, Bool.not_eq_true', State.groupQuiet,
    List.all_eq_true, Bool.or_eq_true, and_assoc]
  refine and_congr_right fun _ => and_congr_right fun _ => and_congr_right fun _ => and_congr_left fun _ => ?_
  refine forall₂_congr fun n _ => ?_
  cases n.phase <;> simp [Phase.unseen] <;> tauto

/-! ## A raise that creates, a raise that raises again -/

theorem raisedPhase_eq_alert_iff (c : PointClass) : c.raisedPhase = .alert ↔ c ≠ .indication := by
  cases c <;> decide

theorem raiseNotice_new {w : Work} {u : UserPt} (hn : w.st.notice? (UserPt.pt u) = none) (kind : RaiseKind) (f : NoticeField) :
    w.raiseNotice kind (UserPt.pt u) f = w.create kind (UserPt.pt u) (w.st.pointRec u).cls.raisedPhase f := by
  rw [Work.raiseNotice, hn, classOf_pt]

theorem raiseNotice_again {w : Work} {p : Pt} {n : Notice} (hn : w.st.notice? p = some n)
    (hphase : n.phase = .fleeting ∨ n.phase = .returned) (kind : RaiseKind) (f : NoticeField) :
    w.raiseNotice kind p f = w.reRaise kind n f := by
  rw [Work.raiseNotice, hn]
  rcases hphase with h | h <;> (dsimp only; rw [h])

theorem raiseNotice_standing {w : Work} {p : Pt} {n : Notice} (hn : w.st.notice? p = some n)
    (hphase : n.phase = .alert ∨ n.phase = .standing) (kind : RaiseKind) (f : NoticeField) :
    w.raiseNotice kind p f = w.refresh kind n f := by
  rw [Work.raiseNotice, hn]
  rcases hphase with h | h <;> (dsimp only; rw [h])

/-- R24, R29, R34, R38, R48: the creation by a fresh raise, from state s by the work w just before it, seen in t after it. -/
theorem creation_spec {s t : State} {w : Work} {u : UserPt} {kind : RaiseKind} (hnt : w.st.nt = s.nt)
    (hpoint : w.st.pointRec u = s.pointRec u) (hgroup : ∀ g, w.st.groupRec g = s.groupRec g)
    (hgrant : w.st.grantsFirstOut kind (UserPt.pt u) = true ↔ FirstOutGrant s u) (hn : s.notice? (UserPt.pt u) = none)
    {f : NoticeField} (ht : SameTable (w.raiseNotice kind (UserPt.pt u) f).st t) :
    (t.nt.rev = s.nt.rev + 1 ∧ t.nt.pendSet = s.nt.pendSet ∧
      t.link.flags = w.st.link.flags ||| AttnEvent.newAlert.maskIf ((s.pointRec u).cls ≠ .indication) ∧
      (FirstOutGrant s u → (t.groupRec (s.pointRec u).group).marker = some u) ∧
      (¬FirstOutGrant s u → (t.groupRec (s.pointRec u).group).marker = (s.groupRec (s.pointRec u).group).marker) ∧
      TakesNumber s t (UserPt.pt u)) ∧
    Holds (t.notice? (UserPt.pt u)) fun m =>
      m.phase = (if (s.pointRec u).cls = .indication then .standing else .alert) ∧ m.origin = w.st.sourceOf (UserPt.pt u) ∧
      m.level = (s.groupRec (s.pointRec u).group).level ∧ m.count = 1 ∧ m.silenced = false ∧ m.realert = none ∧ m.stale = false ∧
      m.chattering = w.st.inChatter (UserPt.pt u) ∧ m.field = f ∧ m.rev = s.nt.rev + 1 ∧ (m.firstOut = true ↔ FirstOutGrant s u) := by
  have hn' : w.st.notice? (UserPt.pt u) = none := by rw [State.notice?, hnt]; exact hn
  rw [raiseNotice_new hn'] at ht
  have heq := Work.create_eq w kind (UserPt.pt u) (w.st.pointRec u).cls.raisedPhase f
  have hmarker := groupRec_create w kind (UserPt.pt u) (w.st.pointRec u).cls.raisedPhase f
  have hrec := record?_create hn' kind (w.st.pointRec u).cls.raisedPhase f (UserPt.pt u)
  rw [if_pos rfl] at hrec
  have htable : t.nt = w.st.nt.created (w.st.newNotice kind (UserPt.pt u) (w.st.pointRec u).cls.raisedPhase f) := by
    rw [ht.nt, heq]; rfl
  have hfirst : (w.st.newNotice kind (UserPt.pt u) (w.st.pointRec u).cls.raisedPhase f).firstOut = true ↔ FirstOutGrant s u := by
    rw [← hgrant]
    show (decide _ && _) = true ↔ _
    rw [Bool.and_eq_true, decide_eq_true_eq, raisedPhase_eq_alert_iff]
    refine and_iff_right_of_imp fun h => ?_
    rw [hpoint]
    exact (hgrant.1 h).1
  refine ⟨⟨?_, ?_, ?_, fun h => ?_, fun h => ?_, ?_⟩, ?_⟩
  · rw [htable, NoticeTable.created_rev, hnt]
  · rw [htable, NoticeTable.created_pendSet, hnt]
  · rw [ht.flags, heq]
    show w.st.link.flags ||| _ = _
    rw [hpoint]
    congr 1
    simp only [AttnEvent.maskIf, raisedPhase_eq_alert_iff]
  · rw [ht.groupRec, hmarker, if_pos ⟨hfirst.2 h, by rw [groupOf_pt, hpoint]⟩]
    exact userOf_pt u
  · rw [ht.groupRec, hmarker, if_neg fun hc => h (hfirst.1 hc.1), hgroup]
  · refine takesNumber_of_advance
      (T := { w.st.nt with
        notices := insertNotice (w.st.newNotice kind (UserPt.pt u) (w.st.pointRec u).cls.raisedPhase f) w.st.nt.notices
        rev := w.st.nt.rev + 1 })
      (m := w.st.newNotice kind (UserPt.pt u) (w.st.pointRec u).cls.raisedPhase f) htable (by rw [hnt]) ?_
      (show w.st.nt.arrival = s.nt.arrival by rw [hnt]) (fun q hq => ?_) ?_
    · exact (noticeAt_insertNotice (notice?_none.1 hn') _).trans (if_pos rfl)
    · refine ((noticeAt_insertNotice (notice?_none.1 hn') q).trans (if_neg hq)).trans ?_
      rw [hnt]
      rfl
    · rw [filter_point_of_none hn, ← hnt]
      exact perm_insertNotice _ _
  · obtain ⟨m, hm, he⟩ := State.record?_eq_some_iff.1 hrec
    rw [Notice.timeless_eq_iff] at he
    refine ⟨m, (ht.notice? _).trans hm, ?_⟩
    rw [he]
    refine ⟨?_, rfl, ?_, rfl, rfl, rfl, rfl, rfl, rfl, ?_, hfirst⟩
    · show (w.st.pointRec u).cls.raisedPhase = _
      rw [hpoint]
      rfl
    · show w.st.levelOf (UserPt.pt u) = _
      rw [State.levelOf, groupOf_pt, hpoint]
      dsimp only
      rw [hgroup]
    · show w.st.nt.rev + 1 = _
      rw [hnt]

/-- R25, R34, R38, R48: the same of a raise that finds FLEETING or RETURNED. -/
theorem reRaise_spec {t : State} {w : Work} {u : UserPt} {kind : RaiseKind} {n : Notice} (hn : w.st.notice? (UserPt.pt u) = some n)
    (hphase : n.phase = .fleeting ∨ n.phase = .returned) {f : NoticeField} (ht : SameTable (w.raiseNotice kind (UserPt.pt u) f).st t) :
    t.nt.rev = w.st.nt.rev + 1 ∧ t.nt.pendSet = w.st.nt.pendSet ∧ t.link.flags = w.st.link.flags ||| AttnEvent.newAlert.mask ∧
    (t.groupRec (w.st.pointRec u).group).marker =
      (if w.st.grantsFirstOut kind (UserPt.pt u) = true then some u else (w.st.groupRec (w.st.pointRec u).group).marker) ∧
    Holds (t.notice? (UserPt.pt u)) fun m =>
      m = { n with phase := .alert, count := min 255 (n.count + 1), silenced := false, realert := none,
                   field := (if kind = .link then f else n.field), rev := w.st.nt.rev + 1, arrival := m.arrival,
                   firstOut := n.firstOut || w.st.grantsFirstOut kind (UserPt.pt u) } := by
  obtain ⟨-, hp⟩ := notice?_some hn
  rw [raiseNotice_again hn hphase] at ht
  have heq := Work.reRaise_eq w kind n f
  have htable : t.nt = w.st.nt.reRaised kind n.point (w.st.grantsFirstOut kind n.point) f := by rw [ht.nt, heq]; rfl
  refine ⟨?_, ?_, ?_, ?_, ?_⟩
  · rw [htable, NoticeTable.reRaised, NoticeTable.advance_rev]; rfl
  · rw [htable, NoticeTable.reRaised_pendSet]
  · rw [ht.flags, heq]; rfl
  · rw [ht.groupRec, groupRec_reRaise, hp, groupOf_pt, userOf_pt]
    simp only [and_true]
    split <;> rfl
  · have hrec := record?_reRaise w kind n f (UserPt.pt u)
    rw [if_pos hp.symm, hp, hn, Option.map_some] at hrec
    obtain ⟨m, hm, he⟩ := State.record?_eq_some_iff.1 hrec
    refine ⟨m, (ht.notice? _).trans hm, ?_⟩
    have he' := (Notice.timeless_eq_iff (m := m) (n := { n with
      phase := .alert, count := min 255 (n.count + 1), silenced := false, realert := none, field := (if kind = .link then f else n.field),
      rev := w.st.nt.rev + 1, firstOut := n.firstOut || w.st.grantsFirstOut kind (UserPt.pt u) })).1 he
    exact he'

/-- R34, R35: the number that a raise again takes, seen from a state that differs by the point's own record. -/
theorem reRaise_takesNumber {s t : State} {w : Work} (hok : w.st.TableOk) {u : UserPt} {kind : RaiseKind} {n : Notice}
    (hn : w.st.notice? (UserPt.pt u) = some n) (hphase : n.phase = .fleeting ∨ n.phase = .returned) {f : NoticeField}
    (ht : SameTable (w.raiseNotice kind (UserPt.pt u) f).st t) (harrival : w.st.nt.arrival = s.nt.arrival)
    (hothers : ∀ q, q ≠ UserPt.pt u → w.st.notice? q = s.notice? q)
    (hrest : (w.st.nt.notices.filter fun x => x.point ≠ UserPt.pt u) = s.nt.notices.filter fun x => x.point ≠ UserPt.pt u) :
    TakesNumber s t (UserPt.pt u) := by
  obtain ⟨-, hp⟩ := notice?_some hn
  rw [raiseNotice_again hn hphase] at ht
  have hlook := noticeAt_change w.st.nt (UserPt.pt u) (f := fun m => { m with
      phase := .alert, count := min 255 (m.count + 1), arrival := w.st.nt.arrival, silenced := false, realert := none,
      firstOut := m.firstOut || w.st.grantsFirstOut kind (UserPt.pt u), field := if kind = .link then f else m.field }) (fun _ => rfl)
  refine takesNumber_of_advance
    (T := w.st.nt.change (UserPt.pt u) fun m => { m with
      phase := .alert, count := min 255 (m.count + 1), arrival := w.st.nt.arrival, silenced := false, realert := none,
      firstOut := m.firstOut || w.st.grantsFirstOut kind (UserPt.pt u), field := if kind = .link then f else m.field })
    (m := { n with
      phase := .alert, count := min 255 (n.count + 1), arrival := w.st.nt.arrival, silenced := false, realert := none,
      firstOut := n.firstOut || w.st.grantsFirstOut kind (UserPt.pt u), field := (if kind = .link then f else n.field),
      rev := w.st.nt.rev + 1 })
    ?_ harrival ?_ harrival (fun q hq => ?_) ?_
  · rw [ht.nt, Work.reRaise_eq, hp]
    rfl
  · rw [hlook, if_pos rfl, show noticeAt w.st.nt.notices (UserPt.pt u) = some n from hn]
    rfl
  · rw [hlook, if_neg hq]
    exact hothers q hq
  · rw [← hrest]
    exact perm_change hok hn _

/-! ## The view and the burst after a raise -/

/-- R79, R81: an ACTIVE parent keeps its children out of the view. -/
theorem suppresses_of_active {t : State} {u : UserPt} (h : t.active (UserPt.pt u) = true) : Suppresses t u := by
  intro v hv
  have hsupp : t.suppressed (UserPt.pt v) = true := (suppressed_child hv).trans h
  refine ⟨hsupp, fun n hn hp => ?_⟩
  obtain ⟨-, hheld⟩ := mem_presented.1 hn
  rw [hp, State.withheld, hsupp, Bool.or_true] at hheld
  cases hheld

/-- R48, R56: a raise announces the notice that it puts into ALERT. -/
theorem alerts_raiseNotice {w : Work} {p : Pt} (kind : RaiseKind) (f : NoticeField)
    (hstill : ∀ n, w.st.notice? p = some n → n.phase = .fleeting ∨ n.phase = .returned) {q : Pt}
    (hq : (w.raiseNotice kind p f).st.phase? q = some .alert) :
    q ∈ (w.raiseNotice kind p f).alerts ↔ q ∈ w.alerts ∨ q = p := by
  by_cases hqp : q = p
  · subst hqp
    refine iff_of_true ?_ (.inr rfl)
    cases hn : w.st.notice? q with
    | none =>
      have hcreate : w.raiseNotice kind q f = w.create kind q (w.st.classOf q).raisedPhase f := by rw [Work.raiseNotice, hn]
      rw [hcreate] at hq ⊢
      rw [State.phase?_eq_record?, record?_create hn, if_pos rfl] at hq
      have hphase : (w.st.classOf q).raisedPhase = .alert := Option.some.inj hq
      rw [Work.create_eq, hphase]
      exact List.mem_cons_self
    | some n =>
      rw [raiseNotice_again hn (hstill n hn), Work.reRaise_eq, (notice?_some hn).2]
      exact List.mem_cons_self
  · rw [(touches_raiseNotice w kind p f).alerts q hqp]
    exact (or_iff_left hqp).symm

end Sys2Proof.Machine

/-! Proofs about RAISE: the notice it creates, refreshes or raises again. -/

namespace Sys2Proof.Machine

/-- R7, R189: a RAISE in RUN that no check refuses. -/
theorem exec_raise {s : State} (h : s.inModeNow .run) {u : UserPt} {f : NoticeField} (hf : f.ok = true) (hlink : s.bindingLine u = none)
    (hgroup : (s.groupRec (s.pointRec u).group).enabled = true) (hroom : s.notice? (UserPt.pt u) ≠ none ∨ s.userCount < 48) :
    exec (.raise (raisePayload u f)) s =
      .next ((settle s ((s.work.putCond (UserPt.pt u) true).raiseNotice .link (UserPt.pt u) f)).replied 0x20 (raisePayload u f)
        (s.raiseResult u) []) := by
  have hfull : ((s.notice? (UserPt.pt u)).isNone && s.tableFull) = false := by
    rcases hroom with hsome | hlow
    · rw [Option.isNone_eq_false_iff.2 (Option.isSome_iff_ne_none.2 hsome), Bool.false_and]
    · rw [State.tableFull, decide_eq_false (by rw [show Config.userRecords = 48 from rfl]; omega), Bool.and_false]
  show Host.Outcome.next (s.request 0x20 _ (raiseVerdict s _)) = _
  rw [raiseVerdict_raisePayload h.2 u hf, (linkSourced_eq_true_iff s u).2 hlink, show s.groupEnabled u = true from hgroup, hfull]
  refine congrArg _ ((request_act_replied h.1 _ _ _ _).trans ?_)
  rw [Work.hostRaise, Work.raiseUser, if_neg]
  rw [show ((s.work.putCond (UserPt.pt u) true).st.notice? (UserPt.pt u)).isNone = (s.notice? (UserPt.pt u)).isNone from rfl,
    show (s.work.putCond (UserPt.pt u) true).st.tableFull = s.tableFull from rfl, hfull]
  decide

section
variable (s : State) (u : UserPt) (f : NoticeField)

/-- A fresh raise from the state with the condition ACTIVE: what it reads of the group is as it was. -/
theorem grantsFirstOut_putCond {kind : RaiseKind} (hk : kind.fresh = true) (hself : s.parentOf (UserPt.pt u) ≠ some u) :
    (s.work.putCond (UserPt.pt u) true).st.grantsFirstOut kind (UserPt.pt u) = true ↔ FirstOutGrant s u :=
  grantsFirstOut_iff hk (fun _ => rfl) (fun _ => rfl) (fun q hq => by rw [active_putCond, if_neg hq]; rfl) hself fun _ => rfl

theorem active_hostRaise {t : State} (ht : SameTable ((s.work.putCond (UserPt.pt u) true).raiseNotice .link (UserPt.pt u) f).st t) (q : Pt) :
    t.active q = if q = UserPt.pt u then true else s.active q := by
  rw [ht.active, active_raiseNotice, active_putCond]
  rfl

theorem framed_hostRaise : Framed s ((s.work.putCond (UserPt.pt u) true).raiseNotice .link (UserPt.pt u) f).st :=
  (framed_putCond s.work _ true).trans (touches_raiseNotice _ .link _ f).frame

end

theorem alerts_hostRaise {s : State} {u : UserPt} (f : NoticeField)
    (hstill : ∀ n, s.notice? (UserPt.pt u) = some n → n.phase = .fleeting ∨ n.phase = .returned) :
    ((s.work.putCond (UserPt.pt u) true).raiseNotice .link (UserPt.pt u) f).alerts = [UserPt.pt u] ∨
      (((s.work.putCond (UserPt.pt u) true).raiseNotice .link (UserPt.pt u) f).alerts = [] ∧ (s.pointRec u).cls = .indication) := by
  cases hn : s.notice? (UserPt.pt u) with
  | none =>
    rw [raiseNotice_new (w := s.work.putCond (UserPt.pt u) true) hn, Work.create_eq]
    by_cases hc : (s.pointRec u).cls = .indication
    · exact .inr ⟨if_neg fun h => (raisedPhase_eq_alert_iff _).1 h hc, hc⟩
    · exact .inl (if_pos ((raisedPhase_eq_alert_iff _).2 hc))
  | some n =>
    left
    rw [raiseNotice_again (w := s.work.putCond (UserPt.pt u) true) hn (hstill n hn), Work.reRaise_eq, (notice?_some hn).2]
    rfl

/-- R57: a raise at the table has its record. -/
theorem hostRaise_eq {s : State} {u : UserPt} (f : NoticeField) (hroom : s.notice? (UserPt.pt u) ≠ none ∨ s.userCount < 48) :
    s.work.hostRaise u f = (s.work.putCond (UserPt.pt u) true).raiseNotice .link (UserPt.pt u) f := by
  refine if_neg ?_
  show ¬((s.notice? (UserPt.pt u)).isNone && s.tableFull) = true
  rw [Bool.and_eq_true, Option.isNone_iff_eq_none, State.tableFull, decide_eq_true_eq, show Config.userRecords = 48 from rfl]
  rintro ⟨hnone, hfull⟩
  exact hroom.elim (fun h => h hnone) fun h => by omega

/-- R56, R123: the view and the burst follow the one notice raised. -/
theorem follows_hostRaise {s : State} (hm : s.ctl.mode = .run) {u : UserPt} {f : NoticeField}
    (hstill : ∀ n, s.notice? (UserPt.pt u) = some n → n.phase = .fleeting ∨ n.phase = .returned)
    (hroom : s.notice? (UserPt.pt u) ≠ none ∨ s.userCount < 48) :
    (s.TableOk → WindowFollows s (settle s ((s.work.putCond (UserPt.pt u) true).raiseNotice .link (UserPt.pt u) f)) fun q => q = UserPt.pt u) ∧
      ChirpFollows s (settle s ((s.work.putCond (UserPt.pt u) true).raiseNotice .link (UserPt.pt u) f)) fun q => q = UserPt.pt u := by
  have hframe := framed_hostRaise s u f
  have htouch := touches_raiseNotice (s.work.putCond (UserPt.pt u) true) .link (UserPt.pt u) f
  refine ⟨fun hok => ?_, chirpFollows_settle s _ _ (by rw [hframe.snd]) fun n _ _ _ hsound => ?_⟩
  · have hok' : ((s.work.putCond (UserPt.pt u) true).raiseNotice .link (UserPt.pt u) f).st.TableOk := by
      rw [← hostRaise_eq f hroom]
      exact tableOk_hostRaise (w := s.work) hok u f
    refine (follows_of_alerts hok' htouch.notify htouch.chirps hframe.pres hframe.snd fun q hq _ => ?_).1
      ((congrArg Control.mode hframe.ctl).trans hm)
    exact (alerts_raiseNotice .link f hstill hq).trans (or_iff_right List.not_mem_nil)
  · rw [htouch.chirps]
    rcases alerts_hostRaise f hstill with halerts | ⟨halerts, hc⟩
    · rw [halerts]
      simp [State.work, Work.putCond, Work.onState]
    · rw [halerts]
      refine iff_of_false (by simp [State.work, Work.putCond, Work.onState]) fun hp => ?_
      rw [State.sounding, hp, classOf_pt, pointRec_framed hframe, hc] at hsound
      simp at hsound

/-- Settles O37: a creation at a state whose one change so far is the point's condition. -/
theorem raiseCreatesTheNotice : Obligations.RaiseCreatesTheNotice := by
  intro s u f hpar hrun hf hlink hgroup hnone hroom p g ind
  rw [exec_raise hrun hf hlink hgroup (.inr hroom)]
  have hresult : s.raiseResult u = .ok := by rw [State.raiseResult, show s.notice? (UserPt.pt u) = none from hnone]
  rw [hresult]
  have hsame := sameTable_replied s ((s.work.putCond (UserPt.pt u) true).raiseNotice .link (UserPt.pt u) f) 0x20 (raisePayload u f) .ok []
  have hgrant := grantsFirstOut_putCond s u (kind := .link) rfl (parentOf_self (hpar hrun.2 u))
  obtain ⟨⟨hrev, hpend, hflags, hmarker, hmarker', htakes⟩, m, hm, hphase, horigin, hlevel, hcount, hsil, hrealert, hstale, hchat, hfield,
    hmrev, hfirst⟩ := creation_spec (s := s) (w := s.work.putCond (UserPt.pt u) true) rfl rfl (fun _ => rfl) hgrant hnone hsame
  have hsource : s.sourceOf (UserPt.pt u) = .link := by
    rw [State.sourceOf, userOf_pt]
    dsimp only
    rw [hlink]
  obtain ⟨hwindow, hburst⟩ := follows_hostRaise hrun.2 (u := u) (f := f) (fun n hn => by rw [hnone] at hn; cases hn) (.inr hroom)
  refine ⟨_, rfl, eventFrame_replied (eventFrame_settle s (framed_hostRaise s u f)) _ _ _ _, rfl, ?_, fun q hq => ?_, hpend, hrev, ?_,
    ⟨m, hm, hphase, horigin.trans hsource, hlevel, hcount, hsil, hrealert, hstale, ?_, hfield, hmrev.trans hrev.symm, hfirst⟩,
    hmarker, hmarker', suppresses_of_active ?_, chirpFollows_recordRun _ hburst, fun hok => windowFollows_recordRun _ (hwindow hok), htakes⟩
  · rw [active_hostRaise s u f hsame, if_pos rfl]
  · rw [active_hostRaise s u f hsame, if_neg (by simpa using hq)]
  · rw [hflags]
    show s.link.flags ||| _ = _
    congr 1
    by_cases hc : (s.pointRec u).cls = .indication
    · exact (if_neg (not_not.2 hc)).trans (if_pos hc).symm
    · exact (if_pos hc).trans (if_neg hc).symm
  · rw [hchat]
    show s.inChatter (UserPt.pt u) = false
    rw [State.inChatter, hsource]
  · rw [active_hostRaise s u f hsame, if_pos rfl]

/-- What withholds a point reads the point records, the conditions and the Shelf List. -/
theorem withheld_of_active {s t : State} (hpoint : ∀ v, t.pointRec v = s.pointRec v) (hactive : ∀ q, t.active q = s.active q)
    (hshelf : t.shelf = s.shelf) (p : Pt) : t.withheld p = s.withheld p := by
  unfold State.withheld State.shelved State.shelfEntry? State.suppressed State.parentOf
  simp only [hshelf, hpoint, hactive]

/-- R36: a change of what the view does not read, at one record. -/
theorem unseenStep_change {s t : State} {p : Pt} {f : Notice → Notice} (hnotices : t.nt.notices = (s.nt.change p f).notices)
    (hf : ∀ n, SeenAlike n (f n)) (hheld : ∀ q, t.withheld q = s.withheld q) :
    UnseenStep (fun n => if n.point = p then { f n with rev := s.nt.rev + 1 } else n) s t := by
  refine ⟨hnotices, fun n => ?_, hheld⟩
  dsimp only
  split
  · exact ⟨(hf n).point, (hf n).phase, (hf n).level, (hf n).arrival, (hf n).silenced⟩
  · exact ⟨rfl, rfl, rfl, rfl, rfl⟩

/-- R33: what a link raise's refresh does to the table. -/
theorem refresh_link (w : Work) (n : Notice) (f : NoticeField) :
    w.refresh .link n f = if n.field = f then w else w.change n.point fun m => { m with field := f } := by
  unfold Work.refresh
  split
  · next h => rw [if_neg h.2]
  · next h => rw [if_pos (by simpa using h)]

/-- Settles O38: a refresh is one change at most; a raise again is one change and one number. -/
theorem raiseRefreshesOrRaisesAgain : Obligations.RaiseRefreshesOrRaisesAgain := by
  intro s u f n hrun hf hlink hgroup hn p g
  have hlive : s.notice? (UserPt.pt u) ≠ none := by
    rw [show s.notice? (UserPt.pt u) = some n from hn]
    simp
  rw [exec_raise hrun hf hlink hgroup (.inl hlive)]
  refine ⟨fun hphase => ?refresh, fun hphase => ?again⟩
  case refresh =>
    have hresult : s.raiseResult u = .refreshed := by
      rw [State.raiseResult, show s.notice? (UserPt.pt u) = some n from hn]
      exact if_pos hphase
    rw [hresult]
    have hsame := sameTable_replied s ((s.work.putCond (UserPt.pt u) true).raiseNotice .link (UserPt.pt u) f) 0x20 (raisePayload u f) .refreshed []
    have hframe := eventFrame_replied (eventFrame_settle s (framed_hostRaise s u f)) 0x20 (raisePayload u f) .refreshed []
    have hactive := active_hostRaise s u f hsame
    have heq : (s.work.putCond (UserPt.pt u) true).raiseNotice .link (UserPt.pt u) f = (s.work.putCond (UserPt.pt u) true).refresh .link n f :=
      raiseNotice_standing (w := s.work.putCond (UserPt.pt u) true) hn hphase .link f
    rw [heq, refresh_link] at hsame hframe hactive ⊢
    obtain ⟨hmem, hp⟩ := notice?_some hn
    have hactive' (hserve : s.ServiceOk) (q : Pt) : (s.work.putCond (UserPt.pt u) true).st.active q = s.active q := by
      rw [active_putCond]
      split
      · next hq =>
        have hholds := hserve.1 n hmem
        rw [hq, ← show n.point = UserPt.pt u from hp, hholds]
        rcases hphase with h | h <;> rw [h] <;> rfl
      · rfl
    have hlook := notice?_change (s.work.putCond (UserPt.pt u) true) n.point (f := fun m => { m with field := f }) fun _ => rfl
    refine ⟨_, rfl, hframe, rfl, by rw [hactive, if_pos rfl], fun q hq => by rw [hactive, if_neg (by simpa using hq)], ?_, ?_, ?_,
      fun q hq => ?_, fun h => ?_, fun hserve => ?_, chirpFollows_recordRun _ (chirpFollows_settle s _ _ ?_ fun m _ _ _ _ => ?_),
      fun hfield => ?_, fun hfield => ⟨?_, ?_⟩⟩
    · rw [hsame.nt]; split <;> rfl
    · rw [hsame.nt]; split <;> rfl
    · rw [hsame.flags]; split <;> rfl
    · rw [hsame.notice?]
      split
      · rfl
      · rw [hlook, if_neg (by rw [hp]; simpa using hq)]
        rfl
    · rw [hsame.groupRec]; split <;> rfl
    · refine settle_window_still s _ (by split <;> rfl) ?_ |>.imp (fun h => h.trans (by split <;> rfl)) fun ⟨h1, h2⟩ =>
        ⟨h1.trans (by split <;> rfl), h2.trans (by split <;> rfl)⟩
      have hheld (q : Pt) : (s.work.putCond (UserPt.pt u) true).st.withheld q = s.withheld q :=
        withheld_of_active (s := s) (t := (s.work.putCond (UserPt.pt u) true).st) (fun _ => rfl) (hactive' hserve) rfl q
      split
      · rw [State.viewShape, State.viewShape, State.presented, State.presented]
        simp only [hheld]
        rfl
      · exact (unseenStep_change (s := s) (t := ((s.work.putCond (UserPt.pt u) true).change n.point fun m => { m with field := f }).st)
          rfl (fun _ => ⟨rfl, rfl, rfl, rfl, rfl⟩) hheld).viewShape.symm
    · split <;> rfl
    · split <;> simp [State.work, Work.putCond, Work.onState, Work.change, Work.onNt]
    · rw [hsame.nt, if_pos hfield]; rfl
    · rw [hsame.nt, if_neg hfield]; rfl
    · rw [hsame.notice?, if_neg hfield, hlook, if_pos hp.symm,
        show (s.work.putCond (UserPt.pt u) true).st.notice? n.point = some n by rw [hp]; exact hn]
      rfl
  case again =>
    have hresult : s.raiseResult u = .ok := by
      rw [State.raiseResult, show s.notice? (UserPt.pt u) = some n from hn]
      exact if_neg (by rcases hphase with h | h <;> rw [h] <;> decide)
    rw [hresult]
    have hsame := sameTable_replied s ((s.work.putCond (UserPt.pt u) true).raiseNotice .link (UserPt.pt u) f) 0x20 (raisePayload u f) .ok []
    have hactive := active_hostRaise s u f hsame
    obtain ⟨hrev, hpend, hflags, hmarker, m, hm, hmeq⟩ := reRaise_spec (w := s.work.putCond (UserPt.pt u) true) hn hphase hsame
    have hgrant (hpar : s.ParentsOk) := grantsFirstOut_putCond s u (kind := .link) rfl (parentOf_self (hpar hrun.2 u))
    obtain ⟨hwindow, hburst⟩ := follows_hostRaise hrun.2 (u := u) (f := f)
      (fun m hm => by rw [show s.notice? (UserPt.pt u) = some n from hn] at hm; cases hm; exact hphase) (.inl hlive)
    refine ⟨_, rfl, eventFrame_replied (eventFrame_settle s (framed_hostRaise s u f)) _ _ _ _, rfl, ?_, fun q hq => ?_, hpend, hrev, ?_,
      ⟨m, hm, ?_, fun hfirst => ?_, fun hpar => ?_⟩, fun hpar => ⟨fun h => ?_, fun h => ?_⟩, suppresses_of_active ?_,
      chirpFollows_recordRun _ hburst, fun hok => windowFollows_recordRun _ (hwindow hok), fun hok => ?_⟩
    · rw [hactive, if_pos rfl]
    · rw [hactive, if_neg (by simpa using hq)]
    · exact flagged_of_mask hflags
    · rw [hmeq]; rfl
    · rw [hmeq]
      show (n.firstOut || _) = true
      rw [hfirst, Bool.true_or]
    · rw [hmeq]
      show (n.firstOut || _) = true ↔ _
      rw [Bool.or_eq_true, hgrant hpar]
    · exact hmarker.trans (if_pos ((hgrant hpar).2 h))
    · exact hmarker.trans (if_neg (mt (hgrant hpar).1 h))
    · rw [hactive, if_pos rfl]
    · exact reRaise_takesNumber (s := s) (w := s.work.putCond (UserPt.pt u) true) (tableOk_putCond hok u true) hn hphase hsame rfl
        (fun _ _ => rfl) rfl

end Sys2Proof.Machine

/-! Proofs about the field lines: the mark of a chattering line, the raise and the clear that a held level brings. -/

namespace Sys2Proof.Machine

/-! ## The mark -/

/-- R47: the record that the mark leaves. -/
def Notice.marked (v : Bool) (rev : BitVec 16) (n : Notice) : Notice := if n.chattering = v then n else { n with chattering := v, rev := rev }

theorem setChattering_of_none {w : Work} {p : Pt} (hn : w.st.notice? p = none) (v : Bool) : w.setChattering v p = w := by
  rw [Work.setChattering, hn]

theorem setChattering_of_some {w : Work} {p : Pt} {n : Notice} (hn : w.st.notice? p = some n) (v : Bool) :
    w.setChattering v p = if n.chattering = v then w else w.change p fun m => { m with chattering := v } := by
  rw [Work.setChattering, hn]

/-- R36, R47: the mark is one change to the record of one point, or none. -/
theorem setChattering_spec (w : Work) (v : Bool) (p : Pt) :
    w.setChattering v p = w ∨ w.setChattering v p = w.change p fun m => { m with chattering := v } := by
  cases hn : w.st.notice? p with
  | none => exact .inl (setChattering_of_none hn v)
  | some n =>
    rw [setChattering_of_some hn]
    split
    · exact .inl rfl
    · exact .inr rfl

theorem notice?_setChattering {w : Work} {p : Pt} {n : Notice} (hn : w.st.notice? p = some n) (v : Bool) :
    (w.setChattering v p).st.notice? p = some (n.marked v (w.st.nt.rev + 1)) := by
  rw [setChattering_of_some hn, Notice.marked]
  split
  · exact hn
  · rw [notice?_change w p (f := fun m => { m with chattering := v }) (fun _ => rfl), if_pos rfl, hn]
    rfl

theorem rev_setChattering {w : Work} {p : Pt} {n : Notice} (hn : w.st.notice? p = some n) (v : Bool) :
    (w.setChattering v p).st.nt.rev = if n.chattering = v then w.st.nt.rev else w.st.nt.rev + 1 := by
  rw [setChattering_of_some hn]
  split <;> rfl

theorem filter_change (t : NoticeTable) (p : Pt) {f : Notice → Notice} (hf : ∀ n, (f n).point = n.point) :
    ((t.change p f).notices.filter fun x => x.point ≠ p) = t.notices.filter fun x => x.point ≠ p := by
  rw [NoticeTable.change, List.filter_map]
  have hkeep : (fun x : Notice => decide (x.point ≠ p)) ∘ (fun n => if n.point = p then { f n with rev := t.rev + 1 } else n) =
      fun x => decide (x.point ≠ p) := by
    funext x
    simp only [Function.comp_apply]
    split
    · rw [hf x]
    · rfl
  rw [hkeep]
  refine (List.map_congr_left fun x hx => ?_).trans (List.map_id' _)
  exact if_neg (of_decide_eq_true (List.mem_filter.1 hx).2)

/-! ## What a line event has done when the bound point's condition moves -/

/-- The work of a line event from state s, with the point's notice at most marked and the line's record written: what the
raise or the clear of the point then reads. -/
structure Readied (s : State) (w : Work) (p : Pt) : Prop where
  pt : w.st.pt = s.pt
  shelf : w.st.shelf = s.shelf
  ctl : w.st.ctl = s.ctl
  pres : w.st.pres = s.pres
  snd : w.st.snd = s.snd
  link : w.st.link = s.link
  pend : w.st.nt.pendSet = s.nt.pendSet
  arrival : w.st.nt.arrival = s.nt.arrival
  points : w.st.nt.points = s.nt.points
  others : ∀ q, q ≠ p → w.st.notice? q = s.notice? q
  rest : (w.st.nt.notices.filter fun x => x.point ≠ p) = s.nt.notices.filter fun x => x.point ≠ p
  none : s.notice? p = none → w.st.nt = s.nt
  phase : ∀ q, w.st.phase? q = s.phase? q
  alerts : w.alerts = []
  chirps : w.chirps = []
  notify : w.notify = false

theorem readied_putLine {s : State} {w : Work} {p : Pt} (h : Readied s w p) (l : LineNo) (r : LineRec) :
    Readied s (w.onState fun s => s.putLine l r) p :=
  ⟨h.pt, h.shelf, h.ctl, h.pres, h.snd, h.link, h.pend, h.arrival, h.points, h.others, h.rest, h.none, h.phase, h.alerts, h.chirps,
    h.notify⟩

theorem readied_work (s : State) (p : Pt) : Readied s s.work p :=
  ⟨rfl, rfl, rfl, rfl, rfl, rfl, rfl, rfl, rfl, fun _ _ => rfl, rfl, fun _ => rfl, fun _ => rfl, rfl, rfl, rfl⟩

theorem readied_setChattering (s : State) (v : Bool) (p : Pt) : Readied s (s.work.setChattering v p) p := by
  have hnone (hn : s.notice? p = none) : (s.work.setChattering v p).st.nt = s.nt := by rw [setChattering_of_none (w := s.work) hn]; rfl
  rcases setChattering_spec s.work v p with h | h
  · rw [h]
    exact readied_work s p
  · rw [h] at hnone ⊢
    exact ⟨rfl, rfl, rfl, rfl, rfl, rfl, rfl, rfl, NoticeTable.points_change _ _ (by exact fun _ => rfl),
      (alters_change s.work p (by exact fun _ => rfl)).notice, filter_change _ _ (by exact fun _ => rfl), hnone,
      phase?_change s.work p (by exact fun _ => rfl) (by exact fun _ => rfl), rfl, rfl, rfl⟩

section
variable {s : State} {w : Work} {p : Pt} (h : Readied s w p)
include h

theorem Readied.tableOk (hok : s.TableOk) : w.st.TableOk := hok.congr h.points h.pend (by rw [State.active, h.pt]; rfl)

theorem Readied.active (q : Pt) : w.st.active q = s.active q := by rw [State.active, h.pt]; rfl

theorem Readied.pointRec (v : UserPt) : w.st.pointRec v = s.pointRec v := by rw [State.pointRec, h.pt]; rfl

theorem Readied.groupRec (g : GroupNo) : w.st.groupRec g = s.groupRec g := by rw [State.groupRec, h.pt]; rfl

theorem Readied.parentOf (q : Pt) : w.st.parentOf q = s.parentOf q := by simp only [State.parentOf, h.pointRec]

theorem Readied.delivers (q : Pt) : w.st.delivers q = s.delivers q := by
  simp only [State.delivers, State.groupOf, h.pointRec, h.groupRec, h.ctl]

theorem Readied.offending (v : UserPt) : w.st.offending v = s.offending v := by simp only [State.offending, h.pointRec]

theorem Readied.live (q : Pt) : w.st.notice? q = .none ↔ s.notice? q = .none := by
  have hphase := h.phase q
  simp only [State.phase?] at hphase
  rw [← Option.map_eq_none_iff (f := Notice.phase), hphase, Option.map_eq_none_iff]

theorem Readied.userCount : w.st.userCount = s.userCount := by
  rw [State.userCount_eq, State.userCount_eq, NoticeTable.users_congr h.points]

theorem Readied.fits (hfits : s.Fits) : w.st.Fits := fits_congr h.phase h.pend h.pt hfits

end

/-! ## The raise -/

theorem setUser_raise {w : Work} {u : UserPt} (h : w.st.active (UserPt.pt u) = false) :
    w.setUser u true true =
      if w.st.delivers (UserPt.pt u) = true then (w.putCond (UserPt.pt u) true).raiseUser .line u .none
      else w.putCond (UserPt.pt u) true := by
  have hedged : (w.putCond (UserPt.pt u) true).edged u true true =
      if w.st.delivers (UserPt.pt u) = true then (w.putCond (UserPt.pt u) true).raiseUser .line u .none
      else w.putCond (UserPt.pt u) true := rfl
  rw [setUser_changes (by rw [h]; decide), ← hedged, if_pos rfl]
  split <;> rfl

theorem setUser_undelivered {w : Work} {u : UserPt} (h : w.st.delivers (UserPt.pt u) = false) :
    w.setUser u true true = w.putCond (UserPt.pt u) true ∨ w.setUser u true true = w := by
  cases ha : w.st.active (UserPt.pt u) with
  | true => exact .inr (setUser_same w u true true ha)
  | false => exact .inl ((setUser_raise ha).trans (if_neg (by rw [h]; decide)))

/-- R5: a moved condition reaches what its edge and its releases reach. -/
theorem touches_setUser {w : Work} (hok : w.st.TableOk) (u : UserPt) (v edge : Bool) :
    Touches (fun _ => True) w (w.setUser u v edge) := by
  by_cases ha : w.st.active (UserPt.pt u) = v
  · rw [setUser_same w u v edge ha]
    exact .refl _ _
  · have hedged : Touches (fun _ => True) w ((w.putCond (UserPt.pt u) v).edged u v edge) := by
      refine ((alters_putCond w (UserPt.pt u) v).toTouches.mono fun _ _ => trivial).trans ?_
      unfold Work.edged
      split
      · split
        · exact (touches_raiseUser _ .line u .none).mono fun _ _ => trivial
        · exact (touches_clearUser (w := w.putCond (UserPt.pt u) v) (tableOk_putCond hok u v) u).mono fun _ _ => trivial
      · exact .refl _ _
    rw [setUser_changes ha]
    split
    · exact hedged.trans ((alters_releaseAll _ _).toTouches.mono fun _ _ => trivial)
    · exact hedged

theorem framed_setUser {w : Work} (hok : w.st.TableOk) (u : UserPt) (v edge : Bool) : Framed w.st (w.setUser u v edge).st :=
  (touches_setUser hok u v edge).frame

theorem active_setUser_raise (w : Work) (u : UserPt) {q : Pt} (hq : q ≠ panelOverflow) :
    (w.setUser u true true).st.active q = if q = UserPt.pt u then true else w.st.active q := by
  cases ha : w.st.active (UserPt.pt u) with
  | true =>
    rw [setUser_same w u true true ha]
    split
    · next he => rw [he, ha]
    · rfl
  | false =>
    rw [setUser_raise ha]
    split
    · exact ((tableStep_raiseUser (w.putCond (UserPt.pt u) true) .line u .none).cond q hq).trans (active_putCond w _ q true)
    · exact active_putCond w _ q true

/-- R57: what a raise of a user point is. -/
theorem raiseUser_eq (w : Work) (kind : RaiseKind) (u : UserPt) (f : NoticeField) :
    w.raiseUser kind u f =
      if w.st.notice? (UserPt.pt u) = none ∧ 48 ≤ w.st.userCount then w.pend u else w.raiseNotice kind (UserPt.pt u) f := by
  unfold Work.raiseUser
  simp only [Bool.and_eq_true, Option.isNone_iff_eq_none, State.tableFull, decide_eq_true_eq]
  rfl

/-- R61, R69: the entry of a point into the Pending Set. -/
theorem pend_eq (w : Work) (u : UserPt) :
    w.pend u =
      if w.st.nt.pendSet = [] then
        ((w.onNt fun t => { t with pendSet := insertPoint u t.pendSet }).setSystem panelOverflow true).flag .overflow
      else w.onNt fun t => { t with pendSet := insertPoint u t.pendSet } := rfl

theorem record?_pend (w : Work) (u : UserPt) {q : Pt} (hq : q ≠ panelOverflow) : (w.pend u).st.record? q = w.st.record? q := by
  rw [pend_eq]
  split
  · exact (touches_setSystem (w.onNt fun t => { t with pendSet := insertPoint u t.pendSet }) panelOverflow true).record q hq
  · rfl

/-- R56, R61, R69: what the entry of a point into the Pending Set announces. -/
theorem mem_alerts_pend {w : Work} (hr : w.st.ctl.mode = .run)
    (hover : w.st.active panelOverflow = true ↔ w.st.nt.pendSet ≠ []) (hfits : w.st.NoticeFits panelOverflow) {u : UserPt} {q : Pt}
    (hq : (w.pend u).st.phase? q = some .alert) :
    q ∈ (w.pend u).alerts ↔ q ∈ w.alerts ∨ q = panelOverflow ∧ w.st.active panelOverflow = false := by
  rw [pend_eq] at hq ⊢
  split at hq
  · next hempty =>
    have hoff : w.st.active panelOverflow = false := by simpa [hempty] using hover
    rw [if_pos hempty]
    have hset : (w.onNt fun t => { t with pendSet := insertPoint u t.pendSet }).setSystem panelOverflow true =
        ((w.onNt fun t => { t with pendSet := insertPoint u t.pendSet }).putCond panelOverflow true).raiseNotice .system panelOverflow .none := by
      unfold Work.setSystem
      rw [if_neg (by rw [show (w.onNt fun t => { t with pendSet := insertPoint u t.pendSet }).st.active panelOverflow =
        w.st.active panelOverflow from rfl, hoff]; decide)]
      dsimp only
      rw [if_pos, if_pos rfl]
      show (decide (w.st.ctl.mode = .run) && true) = true
      rw [hr]
      rfl
    rw [hset] at hq ⊢
    refine (alerts_raiseNotice .system .none (fun n hn => ?_) hq).trans ?_
    · have hfit := (hfits.of_notice? (n := n) hn).1
      rw [hoff] at hfit
      cases hph : n.phase with
      | alert | standing => rw [hph] at hfit; cases hfit
      | fleeting => exact .inl rfl
      | returned => exact .inr rfl
    · simp only [hoff, and_true]
      rfl
  · next hmore =>
    rw [if_neg hmore]
    have hon := hover.2 hmore
    simp only [hon, Bool.true_eq_false, and_false, or_false]
    rfl

/-- R48, R56, R57: what a line raise announces of the ALERT notices. -/
theorem mem_alerts_setUser_raise {w : Work} (hok : w.st.TableOk) (hfits : w.st.Fits) {u : UserPt}
    (hdel : w.st.delivers (UserPt.pt u) = true) (ha : w.st.active (UserPt.pt u) = false) {q : Pt}
    (hq : (w.setUser u true true).st.phase? q = some .alert) :
    q ∈ (w.setUser u true true).alerts ↔
      q ∈ w.alerts ∨ q = UserPt.pt u ∨ q = panelOverflow ∧ w.st.active panelOverflow = false := by
  have hr : w.st.ctl.mode = .run := by
    rw [State.delivers, Bool.and_eq_true, decide_eq_true_eq] at hdel
    exact hdel.1
  have hover : (w.putCond (UserPt.pt u) true).st.active panelOverflow = w.st.active panelOverflow := by
    rw [active_putCond, if_neg (pt_ne_panelOverflow u).symm]
  have hactive {p : Pt} {n : Notice} (hn : w.st.notice? p = some n) (hp : w.st.active p = false) :
      n.phase = .fleeting ∨ n.phase = .returned := by
    have hfit := ((hfits.notice p not_false).of_notice? hn).1
    rw [hp] at hfit
    cases hph : n.phase with
    | alert | standing => rw [hph] at hfit; cases hfit
    | fleeting => exact .inl rfl
    | returned => exact .inr rfl
  rw [setUser_raise ha, if_pos hdel, raiseUser_eq] at hq ⊢
  split at hq
  · next hwait =>
    rw [if_pos hwait]
    have hne : q ≠ UserPt.pt u := by
      rintro rfl
      rw [State.phase?_eq_record?, record?_pend _ _ (pt_ne_panelOverflow u), State.record?_eq_none.2 hwait.1] at hq
      cases hq
    refine (mem_alerts_pend (w := w.putCond (UserPt.pt u) true) hr (by rw [hover]; exact hok.overflow) ?_ hq).trans ?_
    · exact noticeFits_congr (s := w.st) rfl hover id (hfits.notice _ not_false)
    · rw [hover]
      simp only [hne, false_or]
      rfl
  · next hroom =>
    rw [if_neg hroom]
    refine (alerts_raiseNotice (w := w.putCond (UserPt.pt u) true) .line .none (fun n hn => hactive hn ha) hq).trans (or_congr_right ?_)
    refine (or_iff_left ?_).symm
    rintro ⟨rfl, hoff⟩
    rw [State.phase?_eq_record?, (touches_raiseNotice _ .line _ .none).record _ (pt_ne_panelOverflow u).symm,
      ← State.phase?_eq_record?] at hq
    obtain ⟨n, hn, hph⟩ := Option.map_eq_some_iff.1 hq
    rcases hactive (p := panelOverflow) hn hoff with h | h <;> rw [h] at hph <;> cases hph

/-! ## What a line raise does -/

theorem takesNumber_congr {s b t : State} {p : Pt} (h : t.nt = b.nt) (hb : TakesNumber s b p) : TakesNumber s t p := by
  have hlook (q : Pt) : t.notice? q = b.notice? q := by rw [State.notice?, h]; rfl
  simp only [TakesNumber, Renumbers, SameNotices, h, hlook] at hb ⊢
  exact hb

/-- R38: what first-out reads of the group's notices is those of the other points. -/
theorem groupQuiet_rest (s : State) (g : GroupNo) (p : Pt) :
    s.groupQuiet g p = (s.nt.notices.filter fun x => x.point ≠ p).all fun n => s.groupOf n.point ≠ some g || !n.phase.unseen := by
  rw [State.groupQuiet, List.all_filter]
  congr 1
  funext n
  by_cases hp : n.point = p <;> simp [hp]

/-- R175: flags added leave those that are set. -/
theorem flagged_of_flags {a b : State} {m : Byte} (h : b.link.flags = a.link.flags ||| m) {e : AttnEvent} (ha : a.flagged e = true) :
    b.flagged e = true := by
  have hmore := flagged_framed (a := a) (b := a.withLink { a.link with flags := a.link.flags ||| m })
    ⟨rfl, rfl, rfl, fun _ => rfl, rfl, rfl, rfl, rfl, rfl, m, rfl⟩ ha
  rw [State.flagged, h]
  exact hmore

theorem SameTable.refl (s : State) : SameTable s s := ⟨rfl, rfl, rfl, rfl⟩

section
variable {s t : State} {w : Work} {u : UserPt} {l : LineNo} {hold : Bool}

/-- The notice that a line raise finds, marked if the raise is of the entry into chatter hold. -/
def MarkedFor (s : State) (w : Work) (p : Pt) (hold : Bool) : Prop :=
  ∀ n, s.notice? p = some n →
    (∃ r, w.st.notice? p = some { n with chattering := hold || n.chattering, rev := r }) ∧
      w.st.nt.rev + 1 = s.nt.rev + if hold = true ∧ n.chattering = false then 2 else 1

/-- R22, R24, R25, R29, R38, R57, R61, R69, R98: the raise by a held level that becomes active. -/
theorem lineRaises_of (h : Readied s w (UserPt.pt u)) (hmark : MarkedFor s w (UserPt.pt u) hold) (hok : s.TableOk)
    (hself : s.parentOf (UserPt.pt u) ≠ some u)
    (hline : (∀ k, (s.lineRec k).bound = some u → k = l) →
      w.st.sourceOf (UserPt.pt u) = .line l ∧ w.st.inChatter (UserPt.pt u) = hold)
    (hnt : t.nt = ((w.putCond (UserPt.pt u) true).raiseUser .line u .none).st.nt)
    (hpt : t.pt = ((w.putCond (UserPt.pt u) true).raiseUser .line u .none).st.pt)
    (hflags : t.link.flags =
      ((w.putCond (UserPt.pt u) true).raiseUser .line u .none).st.link.flags ||| (if hold = true then AttnEvent.chatter.mask else 0)) :
    LineRaises s t l u hold := by
  have hlook (q : Pt) : t.notice? q = ((w.putCond (UserPt.pt u) true).raiseUser .line u .none).st.notice? q := by
    rw [State.notice?, hnt]; rfl
  have hgroup (g : GroupNo) : t.groupRec g = ((w.putCond (UserPt.pt u) true).raiseUser .line u .none).st.groupRec g := by
    rw [State.groupRec, hpt]; rfl
  have hactive (q : Pt) : t.active q = ((w.putCond (UserPt.pt u) true).raiseUser .line u .none).st.active q := by
    rw [State.active, hpt]; rfl
  have hfull : (w.putCond (UserPt.pt u) true).st.userCount = s.userCount := h.userCount
  have hgrant : (w.putCond (UserPt.pt u) true).st.grantsFirstOut .line (UserPt.pt u) = true ↔ FirstOutGrant s u := by
    refine grantsFirstOut_iff rfl h.pointRec h.groupRec (fun q hq => ?_) hself fun g => ?_
    · rw [active_putCond, if_neg hq, h.active]
    · rw [groupQuiet_rest, groupQuiet_rest]
      have hgroupOf (q : Pt) : (w.putCond (UserPt.pt u) true).st.groupOf q = s.groupOf q := by
        simp only [State.groupOf, show ∀ v, (w.putCond (UserPt.pt u) true).st.pointRec v = s.pointRec v from h.pointRec]
      rw [show ((w.putCond (UserPt.pt u) true).st.nt.notices.filter fun x => x.point ≠ UserPt.pt u) = _ from h.rest]
      simp only [hgroupOf]
  have hbase : (w.putCond (UserPt.pt u) true).st.link.flags = s.link.flags := congrArg Link.flags h.link
  refine ⟨fun hn hroom => ?create, fun n hn hphase => ?again, fun hn hroom => ?wait⟩
  case create =>
    have heq : (w.putCond (UserPt.pt u) true).raiseUser .line u .none =
        (w.putCond (UserPt.pt u) true).raiseNotice .line (UserPt.pt u) .none := by
      rw [raiseUser_eq, hfull]
      exact if_neg fun hc => by omega
    obtain ⟨⟨hrev, hpend, hflag, hmarker, hmarker', htakes⟩, m, hm, hph, horigin, hlevel, hcount, hsil, hrealert, hstale, hchat, hfield,
      hmrev, hfirst⟩ := creation_spec (s := s) (w := w.putCond (UserPt.pt u) true) (h.none hn) (h.pointRec u) h.groupRec hgrant hn
        (f := .none) (SameTable.refl _)
    rw [← heq] at hrev hpend hflag hmarker hmarker' htakes hm
    refine ⟨⟨by rw [hnt]; exact hrev, by rw [hnt]; exact hpend, ?_, fun hg => ?_, fun hg => ?_, takesNumber_congr hnt htakes⟩,
      m, (hlook _).trans hm, hph, hlevel, hcount, hfirst, hsil, hrealert, hstale, hfield, hmrev, fun honly => ?_⟩
    · rw [hflags, hflag, hbase, BitVec.or_assoc, BitVec.or_assoc, BitVec.or_comm (AttnEvent.maskIf _ _)]
      rfl
    · exact (congrArg GroupRec.marker (hgroup _)).trans (hmarker hg)
    · exact (congrArg GroupRec.marker (hgroup _)).trans (hmarker' hg)
    · exact ⟨horigin.trans (hline honly).1, hchat.trans (hline honly).2⟩
  case again =>
    obtain ⟨⟨r, hn'⟩, hrevs⟩ := hmark n hn
    have heq : (w.putCond (UserPt.pt u) true).raiseUser .line u .none =
        (w.putCond (UserPt.pt u) true).raiseNotice .line (UserPt.pt u) .none := by
      rw [raiseUser_eq]
      refine if_neg fun hc => ?_
      rw [show (w.putCond (UserPt.pt u) true).st.notice? (UserPt.pt u) = _ from hn'] at hc
      exact nomatch hc.1
    obtain ⟨hrev, hpend, hflag, hmarker, m, hm, hmeq⟩ := reRaise_spec (w := w.putCond (UserPt.pt u) true) (kind := .line) (f := .none) hn' hphase
      (SameTable.refl _)
    have htakes := reRaise_takesNumber (s := s) (w := w.putCond (UserPt.pt u) true) (kind := .line) (f := .none)
      (tableOk_putCond (h.tableOk hok) u true) hn' hphase (SameTable.refl _) h.arrival h.others h.rest
    have hrev' := hrev.trans hrevs
    rw [← heq] at hrev' hpend hflag hmarker htakes hm
    have hmark' : (t.groupRec (s.pointRec u).group).marker =
        if (w.putCond (UserPt.pt u) true).st.grantsFirstOut .line (UserPt.pt u) = true then some u
        else (s.groupRec (s.pointRec u).group).marker := by
      rw [hgroup, ← h.groupRec, ← h.pointRec u]
      exact hmarker
    refine ⟨⟨by rw [hnt]; exact hrev', by rw [hnt]; exact hpend.trans h.pend, ?_, fun hg => ?_, fun hg => ?_, takesNumber_congr hnt htakes⟩,
      m, (hlook _).trans hm, ?_, ?_⟩
    · rw [hflags, hflag, hbase, BitVec.or_assoc, BitVec.or_assoc, BitVec.or_comm AttnEvent.newAlert.mask, if_pos trivial]
    · rw [hmark', if_pos (hgrant.2 hg)]
    · rw [hmark', if_neg (mt hgrant.1 hg)]
    · rw [hmeq]
      show _ = _
      rw [show (w.putCond (UserPt.pt u) true).st.nt.rev + 1 = _ from hrevs]
      rfl
    · rw [hmeq]
      show (n.firstOut || _) = true ↔ _
      rw [Bool.or_eq_true, hgrant]
  case wait =>
    have hnone : (w.putCond (UserPt.pt u) true).st.notice? (UserPt.pt u) = none := (h.live _).2 hn
    have heq : (w.putCond (UserPt.pt u) true).raiseUser .line u .none = (w.putCond (UserPt.pt u) true).pend u := by
      rw [raiseUser_eq, hfull]
      exact if_pos ⟨hnone, hroom⟩
    have hnt0 : (w.putCond (UserPt.pt u) true).st.nt = s.nt := h.none hn
    have hrec {q : Pt} (hq : q ≠ panelOverflow) : t.record? q = s.record? q := by
      rw [record?_eq_of_notice?_eq (hlook q), heq, record?_pend _ _ hq]
      exact record?_eq_of_notice?_eq (by rw [State.notice?, hnt0]; rfl)
    refine ⟨?_, fun v => ?_, fun hempty => ⟨?_, ?_⟩, fun hmore => ⟨?_, ?_⟩, fun q n hq hqn => ?_⟩
    · rw [← State.record?_eq_none, hrec (pt_ne_panelOverflow u), State.record?_eq_none]
      exact hn
    · rw [hnt, heq, mem_pendSet_pend, hnt0]
    · refine flagged_of_flags hflags ?_
      rw [heq, pend_eq, if_pos (by rw [hnt0]; exact hempty)]
      exact flagged_of_mask rfl
    · rw [hactive, heq, pend_eq, if_pos (by rw [hnt0]; exact hempty)]
      exact ((setSystem_keeps _ _ _).1 _).trans (if_pos rfl)
    · rw [hnt, heq, pend_eq, if_neg (by rw [hnt0]; exact hmore)]
      show (w.putCond (UserPt.pt u) true).st.nt.notices = _
      rw [hnt0]
    · rw [hflags, heq, pend_eq, if_neg (by rw [hnt0]; exact hmore)]
      exact congrArg (· ||| _) hbase
    · exact holds_of_record? ((hrec hq).trans (record?_of_notice? hqn))

end

end Sys2Proof.Machine

/-! Proofs about the expiries of the field lines. -/

namespace Sys2Proof.Machine

/-! ## The line that moves -/

theorem exec_lineQualifyExpiry {s : State} {l : LineNo} (hs : s.inService = true)
    (h : (s.lineRec l).state = .rising ∨ (s.lineRec l).state = .falling) :
    exec (.lineQualifyExpiry l) s = .next (settle s (s.work.qualified l)) := by
  show Host.Outcome.next (if _ then _ else _) = _
  rw [if_pos (by rw [hs]; rcases h with h | h <;> rw [h] <;> rfl)]
  rfl

/-- R94: a held level that stands moves the line's record alone. -/
theorem moveLine_held {w : Work} {l : LineNo} {r : LineRec} (h : (w.st.lineRec l).held = r.held) :
    w.moveLine l r = w.onState fun s => s.putLine l r := by
  unfold Work.moveLine
  dsimp only
  split
  · exact if_pos h
  · rfl

theorem moveLine_unbound {w : Work} {l : LineNo} {r : LineRec} (h : r.bound = none) :
    w.moveLine l r = w.onState fun s => s.putLine l r := by
  unfold Work.moveLine
  rw [h]

theorem moveLine_bound {w : Work} {l : LineNo} {r : LineRec} {u : UserPt} (hb : r.bound = some u) (h : (w.st.lineRec l).held ≠ r.held) :
    w.moveLine l r = (w.onState fun s => s.putLine l r).setUser u r.held true := by
  unfold Work.moveLine
  rw [hb]
  exact if_neg h

/-- A line's record written is seen by no part of the event's end. -/
theorem settle_putLine {s : State} (h : s.ChirpOk) (l : LineNo) (r : LineRec) :
    settle s (s.work.onState fun v => v.putLine l r) = s.putLine l r :=
  settle_onState_still (fun v => v.putLine l r) h rfl (compositionDue_self s)

theorem framed_putLine {a b : State} (h : Framed a b) (l : LineNo) (r : LineRec) : Framed (a.putLine l r) (b.putLine l r) := by
  refine ⟨h.pending, h.ctl, h.points, h.group, h.shelf, ?_, h.kp, h.snd, h.pres, h.link⟩
  show { b.lq with lines := b.lq.lines.set l.val r } = _
  rw [h.lq]
  rfl

/-- R2, R20: a point that one line alone binds has that line as its source. -/
theorem source_of_bound {x : State} {u : UserPt} {l : LineNo} (hl : (x.lineRec l).bound = some u)
    (honly : ∀ k, (x.lineRec k).bound = some u → k = l) :
    x.sourceOf (UserPt.pt u) = .line l ∧ x.inChatter (UserPt.pt u) = decide ((x.lineRec l).hold = .chatter) := by
  have hbind : x.bindingLine u = some l := by
    cases hk : x.bindingLine u with
    | none => exact absurd hl (by simpa using List.find?_eq_none.1 hk l (List.mem_finRange l))
    | some k => rw [honly k (of_decide_eq_true (List.find?_some (p := fun l => decide ((x.lineRec l).bound = some u)) hk))]
  have hsource : x.sourceOf (UserPt.pt u) = .line l := by
    rw [State.sourceOf, userOf_pt]
    dsimp only
    rw [hbind]
  exact ⟨hsource, by rw [State.inChatter, hsource]⟩

/-- R144: an event that leaves the view leaves the window. -/
theorem windowFollows_of_still {s : State} {w : Work} {shown : Pt → Prop} (hn : w.notify = false) (hpres : w.st.pres = s.pres)
    (hv : s.viewShape = w.st.viewShape) : WindowFollows s (settle s w) shown := by
  obtain ⟨htop, hanchor, htimer⟩ := settle_window_still s w hn hv
  rw [hpres] at htop hanchor htimer
  exact ⟨fun hne => absurd (hv.trans (settle_viewShape s w).symm) hne, fun _ => ⟨htop, hanchor, htimer⟩⟩

section
variable {s : State} {w : Work} {u : UserPt}

/-- R48, R56, R57: the ALERT notices that a line's rise announces. -/
theorem mem_alerts_lineRise (h : Readied s w (UserPt.pt u)) (hok : s.TableOk) (hfits : s.Fits) {q : Pt}
    (hq : (w.setUser u true true).st.phase? q = some .alert) :
    q ∈ (w.setUser u true true).alerts ↔ s.delivers (UserPt.pt u) = true ∧ s.active (UserPt.pt u) = false ∧
      (q = UserPt.pt u ∨ q = panelOverflow ∧ s.active panelOverflow = false) := by
  by_cases hcase : s.delivers (UserPt.pt u) = true ∧ s.active (UserPt.pt u) = false
  · have hraise := mem_alerts_setUser_raise (h.tableOk hok) (h.fits hfits) ((h.delivers _).trans hcase.1) ((h.active _).trans hcase.2) hq
    rw [hraise, h.alerts, h.active]
    simp [hcase.1, hcase.2]
  · have hquiet : (w.setUser u true true).alerts = [] := by
      cases ha : w.st.active (UserPt.pt u) with
      | true => rw [setUser_same w u true true ha, h.alerts]
      | false =>
        have hdel : w.st.delivers (UserPt.pt u) = false := by
          rw [h.delivers]
          rw [h.active] at ha
          simpa [ha] using hcase
        rcases setUser_undelivered hdel with he | he <;> rw [he] <;> exact h.alerts
    rw [hquiet]
    exact iff_of_false List.not_mem_nil fun hs => hcase ⟨hs.1, hs.2.1⟩

theorem setUser_quiet_in_config (h : Readied s w (UserPt.pt u)) (hc : s.ctl.mode = .config) (he : s.nt.notices = []) :
    (w.setUser u true true).st.nt.notices = [] := by
  have hdel : w.st.delivers (UserPt.pt u) = false := by
    rw [h.delivers, State.delivers, hc]
    rfl
  have hnt := h.none (notice?_of_empty he _)
  rcases setUser_undelivered hdel with hx | hx <;> rw [hx]
  · exact (congrArg NoticeTable.notices hnt).trans he
  · rw [hnt, he]

/-- R56, R123: the view and the burst after a line's rise, seen in the work that the event ends with. -/
theorem follows_lineRise (h : Readied s w (UserPt.pt u)) (hok : s.TableOk) (hconfig : s.ConfigEmpty) (hserve : s.ServiceOk) {W : Work}
    (hW : W = w.setUser u true true ∨ W = (w.setUser u true true).flag .chatter) :
    let shown := fun q => s.delivers (UserPt.pt u) = true ∧ s.active (UserPt.pt u) = false ∧
      (q = UserPt.pt u ∨ q = panelOverflow ∧ s.active panelOverflow = false)
    WindowFollows s (settle s W) shown ∧ ChirpFollows s (settle s W) shown := by
  intro shown
  have hfits := (serviceOk_iff hok).1 hserve
  have htouch := touches_setUser (h.tableOk hok) u true true
  have hnotify := htouch.notify.trans h.notify
  have hchirps := htouch.chirps.trans h.chirps
  have hpres := htouch.frame.pres.trans h.pres
  have hsnd := htouch.frame.snd.trans h.snd
  have hmode := (congrArg Control.mode htouch.frame.ctl).trans (congrArg Control.mode h.ctl)
  have htable := tableOk_setUser (h.tableOk hok) u true true
  have hfollows : (W.st.ctl.mode = .run → WindowFollows s (settle s W) shown) ∧ ChirpFollows s (settle s W) shown := by
    rcases hW with rfl | rfl
    · exact follows_of_alerts htable hnotify hchirps hpres hsnd fun q hq _ => mem_alerts_lineRise h hok hfits hq
    · exact follows_of_alerts (w := (w.setUser u true true).flag .chatter) (htable.congr rfl rfl rfl) hnotify hchirps hpres hsnd
        fun q hq _ => mem_alerts_lineRise h hok hfits hq
  refine ⟨?_, hfollows.2⟩
  by_cases hm : s.ctl.mode = .config
  · obtain ⟨hnotices, -, -⟩ := hconfig hm
    have hempty := setUser_quiet_in_config h hm hnotices
    rcases hW with rfl | rfl
    · refine windowFollows_of_still hnotify hpres ?_
      rw [State.viewShape, State.viewShape, presented_of_no_notices hnotices, presented_of_no_notices hempty]
    · refine windowFollows_of_still (w := (w.setUser u true true).flag .chatter) hnotify hpres ?_
      rw [State.viewShape, State.viewShape, presented_of_no_notices hnotices,
        presented_of_no_notices (s := ((w.setUser u true true).flag .chatter).st) hempty]
  · refine hfollows.1 ?_
    have hrun := hmode.trans (Mode.run_of_ne_config hm)
    rcases hW with rfl | rfl <;> exact hrun

/-- R22, R26, R29, R62, R81: what a line's fall does, the notice `g n` being what the event has made of the notice n so far. -/
theorem lineFall_spec {g : Notice → Notice} (h : Readied s w (UserPt.pt u)) (hok : s.TableOk) (hpar : s.ParentsOk)
    (hmark : ∀ n, s.notice? (UserPt.pt u) = some n → ∃ r, w.st.notice? (UserPt.pt u) = some { g n with rev := r }) :
    let t := settle s (w.setUser u false true)
    t.active (UserPt.pt u) = false ∧ SameConds s t [UserPt.pt u, panelOverflow] ∧
      (s.delivers (UserPt.pt u) = true → s.active (UserPt.pt u) = true →
        (∀ n, s.notice? (UserPt.pt u) = some n → ClearMoves s t u (g n)) ∧ PendingMoves s t u) ∧
      (s.active (UserPt.pt u) = false → t.nt = w.st.nt ∧ t.pt = s.pt ∧ t.link.flags = s.link.flags) ∧
      (s.ctl.mode = .run → s.active (UserPt.pt u) = true →
        let shown := fun q => s.parentOf q = some u ∨ s.notice? q = none
        ReleaseMoves s t u ∧ WindowFollows s t shown ∧ ChirpFollows s t shown) := by
  intro t
  have hsame := sameTable_settle s (w.setUser u false true)
  have hwok := h.tableOk hok
  cases ha : s.active (UserPt.pt u) with
  | false =>
    have hquiet := setUser_same w u false true ((h.active _).trans ha)
    rw [hquiet] at hsame
    have hcond (q : Pt) : t.active q = s.active q := by
      show (settle s (w.setUser u false true)).active q = _
      rw [hquiet, hsame.active, h.active]
    refine ⟨(hcond _).trans ha, fun q _ => hcond q, fun _ hno => absurd hno Bool.false_ne_true, fun _ => ?_,
      fun _ hno => absurd hno Bool.false_ne_true⟩
    show (settle s (w.setUser u false true)).nt = _ ∧ (settle s (w.setUser u false true)).pt = _ ∧
      (settle s (w.setUser u false true)).link.flags = _
    rw [hquiet]
    exact ⟨hsame.nt, hsame.pt.trans h.pt, hsame.flags.trans (congrArg Link.flags h.link)⟩
  | true =>
    have hself (hm : w.st.ctl.mode = .run) : w.st.offending u = false := by
      rw [h.offending]
      exact hpar (by rw [← h.ctl]; exact hm) u
    have hact : w.st.active (UserPt.pt u) = true := (h.active _).trans ha
    have hby := clearedBy_setUser hwok hself hact true
    refine ⟨?_, fun q hq => ?_, fun hdel _ => ⟨fun n hn => ?_, ?_⟩,
      fun hno => absurd hno (by decide), fun hm _ => ?_⟩
    · rw [hsame.active, hby.active _ (pt_ne_panelOverflow u), if_pos rfl]
    · simp only [List.mem_cons, List.not_mem_nil, or_false, not_or] at hq
      rw [hsame.active, hby.active _ hq.2, if_neg hq.1, h.active]
    · obtain ⟨r, hn'⟩ := hmark n hn
      have hdel' := cleared_delivered (w := w) (u := u) ((h.delivers _).trans hdel)
      have hown := (hsame.notice? (UserPt.pt u)).trans hby.own
      rw [hdel'] at hown
      exact clearMoves_clearUser (w := w.putCond (UserPt.pt u) false) (n := { g n with rev := r }) hn' (tableOk_putCond hwok u false)
        (h.pointRec u) hown fun e he => by
          rw [hsame.flagged]
          exact hby.flag e (by rw [hdel']; exact he)
    · have hdel' := cleared_delivered (w := w) (u := u) ((h.delivers _).trans hdel)
      have hown := (hsame.notice? (UserPt.pt u)).trans hby.own
      have hpend := (congrArg NoticeTable.pendSet hsame.nt).trans hby.pend
      have hover := (hsame.active panelOverflow).trans hby.overflow
      rw [hdel'] at hown hpend hover
      exact pendingMoves_clearUser (w := w.putCond (UserPt.pt u) false) (h.pointRec u) (h.live _) h.pend hown hpend hover
    · have hrun : w.st.ctl.mode = .run := (congrArg Control.mode h.ctl).trans hm
      obtain ⟨hwindow, hburst⟩ := follows_of_alerts (s := s) (w := w.setUser u false true)
        (shown := fun q => s.parentOf q = some u ∨ s.notice? q = none) hby.table
        (hby.notify.trans h.notify) (hby.chirps.trans h.chirps) (hby.table_step.1.trans h.pres) (hby.table_step.2.1.trans h.snd)
        fun q hq hheld => by
          rw [mem_alerts_setUser_clear hwok hrun hact true hq hheld, h.alerts, h.parentOf, h.live]
          exact or_iff_right List.not_mem_nil
      exact ⟨releaseMoves_setUser hwok hrun (hself hrun) hact true (fun v hv => by rw [h.pointRec]; exact hv) h.shelf h.others hsame,
        hwindow ((congrArg Control.mode hby.table_step.2.2).trans hrun), hburst⟩

end

/-! ## The expiry of a qualify time -/

section
variable {r : LineRec} (W : Nat)

/-- R91, R97: a qualified activation outside chatter hold. -/
theorem activated_none (h : r.hold = .none) :
    r.activated W =
      if r.chatterLimit = 0 then { r with state := .active, qualify := 0 }
      else if r.timer = none then { r with state := .active, qualify := 0, count := 1, timer := some { left := W, due := false } }
      else { r with state := .active, qualify := 0, count := r.count + 1 } := by
  unfold LineRec.activated
  dsimp only
  split
  · next hc => rw [h] at hc; cases hc
  · simp only [Option.isNone_iff_eq_none]
    rfl

theorem deactivated_none (h : r.hold = .none) : r.deactivated W = { r with state := .quiet, qualify := 0 } := by
  unfold LineRec.deactivated
  dsimp only
  split
  · next hc => rw [h] at hc; cases hc
  · rfl

/-- R99: in chatter hold a qualified transition starts the release timer anew. -/
theorem activated_chatter (h : r.hold = .chatter) :
    r.activated W = { r with state := .active, qualify := 0, timer := some { left := W, due := false } } := by
  unfold LineRec.activated
  dsimp only
  split
  · rfl
  · next hc => rw [h] at hc; cases hc

theorem deactivated_chatter (h : r.hold = .chatter) :
    r.deactivated W = { r with state := .quiet, qualify := 0, timer := some { left := W, due := false } } := by
  unfold LineRec.deactivated
  dsimp only
  split
  · rfl
  · next hc => rw [h] at hc; cases hc

end

section
variable {w : Work} {l : LineNo}

theorem qualified_rising (h : (w.st.lineRec l).state = .rising) (hlimit : (w.st.lineRec l).reachesLimit = false) :
    w.qualified l = w.moveLine l ((w.st.lineRec l).activated w.st.lq.window) := by
  unfold Work.qualified
  dsimp only
  rw [h, hlimit]
  exact if_neg Bool.false_ne_true

theorem qualified_limit (h : (w.st.lineRec l).state = .rising) (hlimit : (w.st.lineRec l).reachesLimit = true) :
    w.qualified l = w.enterHold l := by
  unfold Work.qualified
  dsimp only
  rw [h, hlimit]
  exact if_pos rfl

theorem qualified_falling (h : (w.st.lineRec l).state = .falling) :
    w.qualified l = w.moveLine l ((w.st.lineRec l).deactivated w.st.lq.window) := by
  unfold Work.qualified
  dsimp only
  rw [h]

end

theorem held_falling {r : LineRec} (hst : r.state = .falling) : r.held = true := by
  simp [LineRec.held, LineRec.qualified, hst]

theorem held_rising {r : LineRec} (hh : r.hold = .none) (hst : r.state = .rising) : r.held = false := by
  simp [LineRec.held, LineRec.qualified, hh, hst]

/-- Settles O51: the held level moves with the line, and the bound point's condition with it. -/
theorem lineQualifyExpiryMovesThePoint : Obligations.LineQualifyExpiryMovesThePoint := by
  intro s l hok hconfig hserve hpar hs hh r opened after
  refine ⟨fun hst hbelow => ?rise, fun hst => ?fall⟩
  case rise =>
    have hafter : r.activated s.lq.window = after := by
      exact activated_none s.lq.window hh
    have hreach : r.reachesLimit = false := by
      rcases hbelow with h | h | h
      · simp [LineRec.reachesLimit, h]
      · simp [LineRec.reachesLimit, h]
      · have hno : ¬r.chatterLimit ≤ r.count + 1 := by omega
        simp [LineRec.reachesLimit, hno]
    have hkept : after.bound = r.bound ∧ after.state = .active ∧ after.hold = .none := by
      show (if _ then _ else _ : LineRec).bound = _ ∧ (if _ then _ else _ : LineRec).state = _ ∧ (if _ then _ else _ : LineRec).hold = _
      split
      · exact ⟨rfl, rfl, hh⟩
      · split <;> exact ⟨rfl, rfl, hh⟩
    obtain ⟨hbound, hactive, hhold⟩ := hkept
    have hq : s.work.qualified l = s.work.moveLine l after := by
      rw [← hafter]
      exact qualified_rising (w := s.work) hst hreach
    have hheld : after.held = true := by simp [LineRec.held, LineRec.qualified, hactive]
    have hne : (s.work.st.lineRec l).held ≠ after.held := by
      rw [hheld, show (s.work.st.lineRec l).held = false from held_rising hh hst]
      decide
    rw [exec_lineQualifyExpiry hs (.inl hst), hq]
    obtain hb | ⟨u, hb⟩ := Option.eq_none_or_eq_some r.bound
    · rw [moveLine_unbound (hbound.trans hb)]
      have hsame := sameTable_settle s (s.work.onState fun v => v.putLine l after)
      exact ⟨_, rfl, eventFrame_settle s (a := s.putLine l after) (w := s.work.onState fun v => v.putLine l after) (.refl _),
        fun _ => ⟨hsame.nt, hsame.pt⟩, fun u hu => nomatch hb.symm.trans hu⟩
    · rw [moveLine_bound (hbound.trans hb) hne, hheld]
      have hready : Readied s (s.work.onState fun v => v.putLine l after) (UserPt.pt u) := readied_putLine (readied_work s _) l after
      have hsame := sameTable_settle s ((s.work.onState fun v => v.putLine l after).setUser u true true)
      have htable := hready.tableOk hok
      refine ⟨_, rfl, eventFrame_settle s (framed_setUser htable u true true), fun hno => absurd (hb.symm.trans hno) (Option.some_ne_none u), fun v hv => ?_⟩
      obtain rfl : u = v := Option.some.inj (hb.symm.trans hv)
      have hcond {q : Pt} (hq : q ≠ panelOverflow) := (hsame.active q).trans (active_setUser_raise (s.work.onState fun v => v.putLine l after) u hq)
      have hon := (hcond (pt_ne_panelOverflow u)).trans (if_pos rfl)
      refine ⟨hon, fun q hq => ?_, suppresses_of_active hon, fun hdel => ?_, fun hdel ha => ?_,
        follows_lineRise hready hok hconfig hserve (.inl rfl)⟩
      · simp only [List.mem_cons, List.not_mem_nil, or_false, not_or] at hq
        exact (hcond hq.2).trans (if_neg hq.1)
      · rw [hsame.nt, hsame.flags]
        rcases setUser_undelivered (w := s.work.onState fun v => v.putLine l after) ((hready.delivers _).trans hdel) with hx | hx <;>
          rw [hx] <;> exact ⟨rfl, rfl⟩
      · have hraise := (setUser_raise (w := s.work.onState fun v => v.putLine l after) ((hready.active _).trans ha)).trans
          (if_pos ((hready.delivers _).trans hdel))
        rw [hraise] at hsame ⊢
        have hrun : s.ctl.mode = .run := by
          rw [State.delivers, Bool.and_eq_true, decide_eq_true_eq] at hdel
          exact hdel.1
        refine lineRaises_of (l := l) (hold := false) hready (fun n hn => ⟨⟨n.rev, hn⟩, by simp; rfl⟩) hok (parentOf_self (hpar hrun u)) (fun honly => ?_)
          hsame.nt hsame.pt (by rw [hsame.flags, if_neg Bool.false_ne_true]; exact (BitVec.or_zero).symm)
        have hrec (k : LineNo) : (s.putLine l after).lineRec k = if k = l then after else s.lineRec k := lineRec_putLine s l k after
        have hsource := source_of_bound (x := s.putLine l after) (u := u) (l := l) (by rw [hrec, if_pos rfl]; exact hbound.trans hb) fun k hk => by
          rw [hrec] at hk
          split at hk
          · assumption
          · exact honly k hk
        refine ⟨hsource.1, hsource.2.trans ?_⟩
        rw [hrec, if_pos rfl, hhold]
        rfl
  case fall =>
    have hq : s.work.qualified l = s.work.moveLine l { r with state := .quiet, qualify := 0 } := by
      rw [← deactivated_none s.lq.window (r := r) hh]
      exact qualified_falling (w := s.work) hst
    have hheld : ({ r with state := .quiet, qualify := 0 } : LineRec).held = false := by
      simp [LineRec.held, LineRec.qualified, show r.hold = .none from hh]
    have hne : (s.work.st.lineRec l).held ≠ ({ r with state := .quiet, qualify := 0 } : LineRec).held := by
      rw [hheld, show (s.work.st.lineRec l).held = true from held_falling hst]
      decide
    rw [exec_lineQualifyExpiry hs (.inr hst), hq]
    obtain hb | ⟨u, hb⟩ := Option.eq_none_or_eq_some r.bound
    · rw [moveLine_unbound (r := { r with state := .quiet, qualify := 0 }) hb]
      have hsame := sameTable_settle s (s.work.onState fun v => v.putLine l { r with state := .quiet, qualify := 0 })
      exact ⟨_, rfl, eventFrame_settle s (a := s.putLine l { r with state := .quiet, qualify := 0 })
        (w := s.work.onState fun v => v.putLine l { r with state := .quiet, qualify := 0 }) (.refl _),
        fun _ => ⟨hsame.nt, hsame.pt⟩, fun u hu => nomatch hb.symm.trans hu⟩
    · rw [moveLine_bound (r := { r with state := .quiet, qualify := 0 }) hb hne, hheld]
      have hready : Readied s (s.work.onState fun v => v.putLine l { r with state := .quiet, qualify := 0 }) (UserPt.pt u) :=
        readied_putLine (readied_work s _) l _
      obtain ⟨hoff, hconds, hmoves, hstill, hrel⟩ := lineFall_spec (g := id) hready hok hpar fun n hn => ⟨n.rev, hn⟩
      refine ⟨_, rfl, eventFrame_settle s (framed_setUser (hready.tableOk hok) u false true), fun hno => absurd (hb.symm.trans hno) (Option.some_ne_none u), fun v hv => ?_⟩
      obtain rfl : u = v := Option.some.inj (hb.symm.trans hv)
      exact ⟨hoff, hconds, hmoves, hstill, hrel⟩

end Sys2Proof.Machine

/-! Proofs about chatter hold: its entry, the transitions in it, and its release. -/

namespace Sys2Proof.Machine

/-! ## The marked notice -/

theorem marked_true (rev : BitVec 16) (n : Notice) : (n.marked true rev).chattering = true := by
  unfold Notice.marked
  split
  · assumption
  · rfl

theorem marked_eq (v : Bool) (rev : BitVec 16) (n : Notice) : ∃ r, n.marked v rev = { n with chattering := v, rev := r } := by
  unfold Notice.marked
  split
  · next h => exact ⟨n.rev, by rw [← h]⟩
  · exact ⟨rev, rfl⟩

/-- R98: the mark of the entry is one change of its own, where the notice did not carry it. -/
theorem markedFor_enter (s : State) (p : Pt) (l : LineNo) (r : LineRec) :
    MarkedFor s ((s.work.setChattering true p).onState fun v => v.putLine l r) p true := by
  intro n hn
  have hrev := rev_setChattering (w := s.work) hn true
  refine ⟨?_, ?_⟩
  · obtain ⟨rev, he⟩ := marked_eq true (s.nt.rev + 1) n
    exact ⟨rev, (notice?_setChattering (w := s.work) hn true).trans (congrArg some he)⟩
  · refine (congrArg (· + 1) hrev).trans ?_
    cases n.chattering with
    | true => rfl
    | false => exact BitVec.add_assoc _ 1#16 1#16

/-- R25: a raise keeps the mark. -/
theorem chattering_setUser {w : Work} {u : UserPt} {n : Notice} (hn : w.st.notice? (UserPt.pt u) = some n) (hc : n.chattering = true) :
    Holds ((w.setUser u true true).st.notice? (UserPt.pt u)) fun m => m.chattering = true := by
  cases ha : w.st.active (UserPt.pt u) with
  | true =>
    rw [setUser_same w u true true ha]
    exact ⟨n, hn, hc⟩
  | false =>
    rw [setUser_raise ha]
    split
    · rw [raiseUser_eq, if_neg fun h => nomatch (show some n = none from hn.symm.trans h.1)]
      by_cases hphase : n.phase = .alert ∨ n.phase = .standing
      · rw [raiseNotice_standing (w := w.putCond (UserPt.pt u) true) hn hphase, Work.refresh, if_neg (by simp)]
        exact ⟨n, hn, hc⟩
      · have hphase' : n.phase = .fleeting ∨ n.phase = .returned := by cases hp : n.phase <;> simp_all
        obtain ⟨-, -, -, -, m, hm, he⟩ := reRaise_spec (w := w.putCond (UserPt.pt u) true) (kind := .line) (f := .none) hn hphase'
          (SameTable.refl _)
        exact ⟨m, hm, by rw [he]; exact hc⟩
    · exact ⟨n, hn, hc⟩

theorem markChattering_some (w : Work) (u : UserPt) (v : Bool) : w.markChattering (some u) v = w.setChattering v (UserPt.pt u) := rfl

theorem lq_setChattering (w : Work) (v : Bool) (p : Pt) : (w.setChattering v p).st.lq = w.st.lq := (alters_setChattering v w p).frame.lq

theorem lineRec_setChattering (w : Work) (v : Bool) (p : Pt) (l : LineNo) : (w.setChattering v p).st.lineRec l = w.st.lineRec l := by
  rw [State.lineRec, lq_setChattering]
  rfl

theorem held_chatter {r : LineRec} (h : r.hold = .chatter) : r.held = true := by simp [LineRec.held, h]

/-- R99: in chatter hold no activation is counted. -/
theorem reachesLimit_chatter {r : LineRec} (h : r.hold = .chatter) : r.reachesLimit = false := by simp [LineRec.reachesLimit, h]

/-- Settles O52: the entry marks, raises and sets CHATTER; in hold the held level stands. -/
theorem chatterHoldKeepsTheLineActive : Obligations.ChatterHoldKeepsTheLineActive := by
  intro s l hok hchirp hs r held entered toActive toQuiet
  refine ⟨fun hst hh hlimit htimer hcount => ?enter, fun hh hst => ?rise, fun hh hst => ?fall⟩
  case rise =>
    have hheld : (s.work.st.lineRec l).held = toActive.held := (held_chatter (r := r) hh).trans (held_chatter (r := toActive) hh).symm
    rw [exec_lineQualifyExpiry hs (.inl hst), qualified_rising (w := s.work) hst (reachesLimit_chatter hh),
      show (s.work.st.lineRec l).activated s.work.st.lq.window = toActive from activated_chatter _ hh, moveLine_held hheld,
      settle_putLine hchirp]
    rfl
  case fall =>
    have hheld : (s.work.st.lineRec l).held = toQuiet.held := (held_chatter (r := r) hh).trans (held_chatter (r := toQuiet) hh).symm
    rw [exec_lineQualifyExpiry hs (.inr hst), qualified_falling (w := s.work) hst,
      show (s.work.st.lineRec l).deactivated s.work.st.lq.window = toQuiet from deactivated_chatter _ hh, moveLine_held hheld,
      settle_putLine hchirp]
    rfl
  case enter =>
    have hreach : (s.work.st.lineRec l).reachesLimit = true := by
      have htimer' : r.timer.isSome = true := Option.isSome_iff_ne_none.2 htimer
      show (decide (r.hold = .none) && decide (r.chatterLimit ≠ 0) && r.timer.isSome && decide (r.chatterLimit ≤ r.count + 1)) = true
      rw [decide_eq_true hh, decide_eq_true hlimit, htimer', decide_eq_true hcount]
      rfl
    have hentered : (s.work.st.lineRec l).enterHold s.work.st.lq.window = entered := rfl
    have hq : s.work.qualified l = ((s.work.markChattering r.bound true).moveLine l entered).flag .chatter :=
      qualified_limit (w := s.work) hst hreach
    rw [exec_lineQualifyExpiry hs (.inl hst), hq]
    obtain hb | ⟨u, hb⟩ := Option.eq_none_or_eq_some r.bound
    · rw [show s.work.markChattering r.bound true = s.work by rw [hb]; rfl, moveLine_unbound (r := entered) hb]
      have hsame := sameTable_settle s ((s.work.onState fun v => v.putLine l entered).flag .chatter)
      refine ⟨_, rfl, eventFrame_settle s (a := s.putLine l entered) (w := (s.work.onState fun v => v.putLine l entered).flag .chatter)
        (alters_flag (fun _ => False) (s.work.onState fun v => v.putLine l entered) .chatter).frame, ?_, fun _ => ⟨hsame.nt, hsame.pt⟩,
        fun u hu => absurd (hb.symm.trans hu) (Option.some_ne_none u).symm⟩
      rw [hsame.flagged]
      exact flagged_of_mask rfl
    · have hne : ((s.work.setChattering true (UserPt.pt u)).st.lineRec l).held ≠ entered.held := by
        rw [lineRec_setChattering, show (s.work.st.lineRec l).held = false from held_rising hh hst]
        simp [LineRec.held, entered]
      have hheld : entered.held = true := by simp [LineRec.held, entered]
      rw [show s.work.markChattering r.bound true = s.work.setChattering true (UserPt.pt u) by rw [hb]; rfl,
        moveLine_bound (r := entered) hb hne, hheld]
      have hready : Readied s ((s.work.setChattering true (UserPt.pt u)).onState fun v => v.putLine l entered) (UserPt.pt u) :=
        readied_putLine (readied_setChattering s true _) l entered
      have htable := hready.tableOk hok
      have hsame := sameTable_settle s
        ((((s.work.setChattering true (UserPt.pt u)).onState fun v => v.putLine l entered).setUser u true true).flag .chatter)
      have hframe : Framed (s.putLine l entered)
          ((((s.work.setChattering true (UserPt.pt u)).onState fun v => v.putLine l entered).setUser u true true).flag .chatter).st :=
        ((framed_putLine (alters_setChattering true s.work (UserPt.pt u)).frame l entered).trans (framed_setUser htable u true true)).trans
          (alters_flag (fun _ => False) _ .chatter).frame
      have hcond {q : Pt} (hq : q ≠ panelOverflow) := (hsame.active q).trans
        ((active_setUser_raise ((s.work.setChattering true (UserPt.pt u)).onState fun v => v.putLine l entered) u hq).trans
          (by rw [hready.active]))
      have hon := (hcond (pt_ne_panelOverflow u)).trans (if_pos rfl)
      refine ⟨_, rfl, eventFrame_settle s hframe, ?_, fun hno => absurd (hb.symm.trans hno) (Option.some_ne_none u), fun v hv => ?_⟩
      · rw [hsame.flagged]
        exact flagged_of_mask rfl
      obtain rfl : u = v := Option.some.inj (hb.symm.trans hv)
      refine ⟨hon, fun q hq => ?_, fun n hn => ?_, fun hconfig hserve hpar => ⟨fun hraises => ?_, suppresses_of_active hon, ?_⟩⟩
      · simp only [List.mem_cons, List.not_mem_nil, or_false, not_or] at hq
        exact (hcond hq.2).trans (if_neg hq.1)
      · rw [hsame.notice?]
        exact chattering_setUser (w := (s.work.setChattering true (UserPt.pt u)).onState fun v => v.putLine l entered)
          (notice?_setChattering (w := s.work) hn true) (marked_true _ n)
      · obtain ⟨hdel, ha⟩ := hraises
        have hraise := (setUser_raise (w := (s.work.setChattering true (UserPt.pt u)).onState fun v => v.putLine l entered)
          ((hready.active _).trans ha)).trans (if_pos ((hready.delivers _).trans hdel))
        have hrun : s.ctl.mode = .run := by
          rw [State.delivers, Bool.and_eq_true, decide_eq_true_eq] at hdel
          exact hdel.1
        rw [hraise] at hsame ⊢
        refine lineRaises_of (l := l) (hold := true) hready (markedFor_enter s _ l entered) hok (parentOf_self (hpar hrun u))
          (fun honly => ?_) hsame.nt hsame.pt (by rw [hsame.flags, if_pos rfl]; rfl)
        have hrec (k : LineNo) : (((s.work.setChattering true (UserPt.pt u)).onState fun v => v.putLine l entered).st).lineRec k =
            if k = l then entered else s.lineRec k :=
          (lineRec_putLine (s.work.setChattering true (UserPt.pt u)).st l k entered).trans (by rw [lineRec_setChattering]; rfl)
        have hsource := source_of_bound (x := ((s.work.setChattering true (UserPt.pt u)).onState fun v => v.putLine l entered).st)
          (u := u) (l := l) (by rw [hrec, if_pos rfl]; exact hb) fun k hk => by
            rw [hrec] at hk
            split at hk
            · assumption
            · exact honly k hk
        refine ⟨hsource.1, hsource.2.trans ?_⟩
        rw [hrec, if_pos rfl]
        rfl
      · have hfollows : WindowFollows s _ _ ∧ ChirpFollows s _ _ := follows_lineRise hready hok hconfig hserve (.inr rfl)
        simp only [← and_assoc (a := s.delivers _ = true)] at hfollows
        exact hfollows

/-! ## The release -/

theorem exec_chatterRelease {s : State} {l : LineNo} {c : Countdown} (hs : s.inService = true) (ht : (s.lineRec l).timer = some c)
    (hd : c.due = true) (hh : (s.lineRec l).hold = .chatter) :
    exec (.chatterRelease l) s = .next (settle s (s.work.releaseLine l)) := by
  show Host.Outcome.next (if _ then _ else _) = _
  rw [if_pos (by rw [hs, hh, ht]; exact hd)]
  rfl

theorem exec_chatterWindowExpiry {s : State} {l : LineNo} {c : Countdown} (hs : s.inService = true) (ht : (s.lineRec l).timer = some c)
    (hd : c.due = true) (hh : (s.lineRec l).hold = .none) :
    exec (.chatterWindowExpiry l) s = .next (s.putLine l { s.lineRec l with count := 0, timer := none }) := by
  show Host.Outcome.next (if _ then _ else _) = _
  rw [if_pos (by rw [hs, hh, ht]; exact hd)]

/-- R47: the mark is not seen in the view. -/
theorem viewShape_marked (s : State) (v : Bool) (p : Pt) (l : LineNo) (r : LineRec) :
    ((s.work.setChattering v p).onState fun x => x.putLine l r).st.viewShape = s.viewShape := by
  rcases setChattering_spec s.work v p with h | h <;> rw [h]
  · rfl
  · exact (unseenStep_change (s := s) (t := ((s.work.change p fun m => { m with chattering := v }).onState fun x => x.putLine l r).st)
      rfl (fun _ => ⟨rfl, rfl, rfl, rfl, rfl⟩) fun _ => rfl).viewShape

/-- Settles O53: the release unmarks the notice and passes the held level on. -/
theorem chatterTimersCloseAndRelease : Obligations.ChatterTimersCloseAndRelease := by
  intro s l c hok hpar hs ht hd r
  refine ⟨fun hh => exec_chatterWindowExpiry hs ht hd hh, fun hh => ?_⟩
  rw [exec_chatterRelease hs ht hd hh]
  have hrelease : s.work.releaseLine l = (s.work.markChattering r.bound false).moveLine l r.idleWindow := rfl
  have hold : r.held = true := by simp [LineRec.held, show r.hold = .chatter from hh]
  rw [hrelease]
  obtain hb | ⟨u, hb⟩ := Option.eq_none_or_eq_some r.bound
  · rw [show s.work.markChattering r.bound false = s.work by rw [hb]; rfl, moveLine_unbound (r := r.idleWindow) hb]
    have hsame := sameTable_settle s (s.work.onState fun v => v.putLine l r.idleWindow)
    exact ⟨_, rfl, eventFrame_settle s (a := s.putLine l r.idleWindow) (w := s.work.onState fun v => v.putLine l r.idleWindow) (.refl _),
      fun _ => ⟨hsame.nt, hsame.pt⟩, fun u hu => absurd (hb.symm.trans hu) (Option.some_ne_none u).symm,
      fun u hu => absurd (hb.symm.trans hu) (Option.some_ne_none u).symm, fun u hu => absurd (hb.symm.trans hu) (Option.some_ne_none u).symm⟩
  · rw [show s.work.markChattering r.bound false = s.work.setChattering false (UserPt.pt u) by rw [hb]; rfl]
    have hready : Readied s ((s.work.setChattering false (UserPt.pt u)).onState fun v => v.putLine l r.idleWindow) (UserPt.pt u) :=
      readied_putLine (readied_setChattering s false _) l _
    have hput := framed_putLine (alters_setChattering false s.work (UserPt.pt u)).frame l r.idleWindow
    have hmark (n : Notice) (hn : s.notice? (UserPt.pt u) = some n) :
        ∃ rev, ((s.work.setChattering false (UserPt.pt u)).onState fun v => v.putLine l r.idleWindow).st.notice? (UserPt.pt u) =
          some { n with chattering := false, rev := rev } := by
      obtain ⟨rev, he⟩ := marked_eq false (s.nt.rev + 1) n
      exact ⟨rev, (notice?_setChattering (w := s.work) hn false).trans (congrArg some he)⟩
    by_cases hq : r.state = .active ∨ r.state = .falling
    · have hstand : ((s.work.setChattering false (UserPt.pt u)).st.lineRec l).held = r.idleWindow.held := by
        rw [lineRec_setChattering, show (s.work.st.lineRec l).held = true from hold]
        rcases hq with h | h <;> simp [LineRec.held, LineRec.idleWindow, LineRec.qualified, h]
      have hother : ¬(r.state = .quiet ∨ r.state = .rising) := by rcases hq with h | h <;> rw [h] <;> decide
      rw [moveLine_held hstand]
      have hsame := sameTable_settle s ((s.work.setChattering false (UserPt.pt u)).onState fun v => v.putLine l r.idleWindow)
      refine ⟨_, rfl, eventFrame_settle s (a := s.putLine l r.idleWindow) hput,
        fun hno => absurd (hb.symm.trans hno) (Option.some_ne_none u), fun v hv _ => ⟨hsame.pt.trans hready.pt, fun n hn => ?_⟩,
        fun v hv _ => ?_, fun v hv h => absurd h hother⟩
      · obtain rfl : u = v := Option.some.inj (hb.symm.trans hv)
        obtain ⟨rev, hm⟩ := hmark n hn
        exact ⟨_, (hsame.notice? _).trans hm, rfl⟩
      · have hwindow := settle_window_still s ((s.work.setChattering false (UserPt.pt u)).onState fun v => v.putLine l r.idleWindow)
          hready.notify (viewShape_marked s false _ l _).symm
        rw [hready.pres] at hwindow
        obtain ⟨htop, hanchor, htimer⟩ := hwindow
        refine ⟨htop, hanchor, htimer, chirpFollows_settle s _ _ (congrArg Sounder.chirp hready.snd) fun n _ _ _ _ => ?_⟩
        rw [hready.alerts, hready.chirps]
        simp
    · have hother : r.state = .quiet ∨ r.state = .rising := by cases hst : r.state <;> simp_all
      have hfalls : r.idleWindow.held = false := by
        rcases hother with h | h <;> simp [LineRec.held, LineRec.idleWindow, LineRec.qualified, h]
      have hne : ((s.work.setChattering false (UserPt.pt u)).st.lineRec l).held ≠ r.idleWindow.held := by
        rw [lineRec_setChattering, show (s.work.st.lineRec l).held = true from hold, hfalls]
        decide
      rw [moveLine_bound (r := r.idleWindow) hb hne, hfalls]
      obtain ⟨hoff, hconds, hmoves, -, hrel⟩ := lineFall_spec (g := fun n => { n with chattering := false }) hready hok hpar hmark
      refine ⟨_, rfl, eventFrame_settle s (a := s.putLine l r.idleWindow) (hput.trans (framed_setUser (hready.tableOk hok) u false true)),
        fun hno => absurd (hb.symm.trans hno) (Option.some_ne_none u), fun v hv h => absurd h hq, fun v hv h => absurd h hq, fun v hv _ => ?_⟩
      obtain rfl : u = v := Option.some.inj (hb.symm.trans hv)
      exact ⟨hoff, hconds, hmoves, hrel⟩

end Sys2Proof.Machine

/-! Proofs about group disable. -/

namespace Sys2Proof.Machine

/-- R83: a release moves no phase, no count and no first-out flag. -/
theorem releaseAll_keeps (l : List Pt) {w : Work} {q : Pt} {n : Notice} (hn : w.st.notice? q = some n) :
    Holds ((w.releaseAll l).st.notice? q) fun m => m.phase = n.phase ∧ m.count = n.count ∧ m.firstOut = n.firstOut := by
  induction l generalizing w n with
  | nil => exact ⟨n, hn, rfl, rfl, rfl⟩
  | cons p rest ih =>
    have hnext : Holds ((w.returnToView p).st.notice? q) fun m => m.phase = n.phase ∧ m.count = n.count ∧ m.firstOut = n.firstOut := by
      by_cases hq : q = p
      · subst hq
        obtain ⟨hreturns, hstands⟩ := released_returnToView w q n hn
        by_cases h : w.st.withheld q = true ∨ n.phase.unseen = false
        · exact ⟨n, hstands h, rfl, rfl, rfl⟩
        · simp only [not_or, Bool.not_eq_true, Bool.not_eq_false] at h
          obtain ⟨-, m, hm, he⟩ := hreturns h.1 h.2
          refine ⟨m, hm, ?_⟩
          rw [he]
          split <;> exact ⟨rfl, rfl, rfl⟩
      · exact ⟨n, ((alters_returnToView w p).notice q hq).trans hn, rfl, rfl, rfl⟩
    obtain ⟨m, hm, hphase, hcount, hfirst⟩ := hnext
    obtain ⟨k, hk, hphase', hcount', hfirst'⟩ := ih hm
    exact ⟨k, hk, hphase'.trans hphase, hcount'.trans hcount, hfirst'.trans hfirst⟩

theorem framed_clearGroupLinks (s : State) (g : GroupNo) : Framed s (s.clearGroupLinks g) :=
  ⟨rfl, rfl, rfl, fun _ => rfl, rfl, rfl, rfl, rfl, rfl, 0#8, by rw [BitVec.or_zero]; rfl⟩

/-- R16: the work of a group disable with its retirements done. -/
def Work.groupEmptied (w : Work) (g : GroupNo) : Work :=
  ((w.withdraw fun u => (w.st.pointRec u).group = g).st.groupNotices g).foldl Work.retireAt (w.withdraw fun u => (w.st.pointRec u).group = g)

theorem disableGroup_eq (w : Work) (g : GroupNo) :
    w.disableGroup g =
      (((w.groupEmptied g).onState fun s => s.clearGroupLinks g).releaseAll ((w.groupEmptied g).st.groupLinkChildren g)).setMarker g none := rfl

/-- R63: a withdrawal reaches no notice but that of PANEL OVERFLOW. -/
theorem notice?_withdraw (w : Work) (gone : UserPt → Bool) {q : Pt} (hq : q ≠ panelOverflow) :
    (w.withdraw gone).st.notice? q = w.st.notice? q := by
  unfold Work.withdraw
  split
  · dsimp only
    split
    · exact (alters_setSystem_clear (w.onNt fun t => { t with pendSet := t.pendSet.filter fun u => !gone u }) panelOverflow).notice q hq
    · rfl
  · rfl

theorem groupEmptied_eq (w : Work) (g : GroupNo) :
    w.groupEmptied g = ((w.withdraw fun u => (w.st.pointRec u).group = g).st.groupNotices g).foldl Work.retireAt
      (w.withdraw fun u => (w.st.pointRec u).group = g) := rfl

/-- What the first two steps of a group disable leave. -/
structure GroupEmptied (w b : Work) (g : GroupNo) : Prop where
  table : b.st.TableOk
  frame : Framed w.st b.st
  cond : ∀ q, q ≠ panelOverflow → b.st.active q = w.st.active q
  gone : ∀ q, w.st.groupOf q = some g → b.st.notice? q = none
  pend : ∀ u ∈ b.st.nt.pendSet, (w.st.pointRec u).group ≠ g
  others : ∀ q, q ≠ panelOverflow → w.st.groupOf q ≠ some g → w.st.notice? q ≠ none → b.st.record? q = w.st.record? q
  retired : (∃ q, w.st.groupOf q = some g ∧ w.st.notice? q ≠ none) → b.st.flagged .retired = true

theorem groupEmptied_spec {w : Work} (hr : w.st.ctl.mode = .run) (hok : w.st.TableOk) (g : GroupNo)
    (h : w.st.FitsBut fun q => w.st.groupOf q = some g) : GroupEmptied w (w.groupEmptied g) g := by
  have hP : ¬w.st.groupOf panelOverflow = some g := by rw [groupOf_of_userOf_none _ rfl]; simp
  have hstep := tableStep_withdraw w fun u => decide ((w.st.pointRec u).group = g)
  have halters := alters_withdraw w fun u => decide ((w.st.pointRec u).group = g)
  have hok1 := tableOk_withdraw hok fun u => decide ((w.st.pointRec u).group = g)
  have hleft := fits_withdraw hr hP h fun u => decide ((w.st.pointRec u).group = g)
  have hpend := pendSet_withdraw w fun u => decide ((w.st.pointRec u).group = g)
  have hstay (q : Pt) (ho : q ≠ panelOverflow) := notice?_withdraw w (fun u => decide ((w.st.pointRec u).group = g)) ho
  rw [groupEmptied_eq]
  generalize (w.withdraw fun u => decide ((w.st.pointRec u).group = g)) = w1 at hstep halters hok1 hleft hpend hstay ⊢
  have hW : ∀ u ∈ w1.st.nt.pendSet, ¬w.st.groupOf (UserPt.pt u) = some g := by
    intro u hu
    rw [hpend, List.mem_filter] at hu
    rw [groupOf_pt]
    simpa using hu.2
  have hgroup (q : Pt) : w1.st.groupOf q = w.st.groupOf q := groupOf_framed halters.frame q
  obtain ⟨hfits, hnone⟩ := fits_retireAll hP (w1.st.groupNotices g) ((congrArg Control.mode hstep.ctl).trans hr) hok1 hW hleft
    fun q hq hne => mem_groupNotices.2 ⟨(hgroup q).trans hq, hne⟩
  obtain ⟨hreach, hshrink⟩ := touches_foldl (fun _ p h => tableOk_retireAt h p) (fun _ p h => touches_retireAt h p)
    shrinks_retireAt (w1.st.groupNotices g) w1 hok1
  have hcond := (tableStep_foldl Work.retireAt tableStep_retireAt (w1.st.groupNotices g) w1).cond
  refine ⟨foldl_keeps (P := fun x => x.st.TableOk) (fun _ p h => tableOk_retireAt h p) _ hok1, halters.frame.trans hreach.frame,
    fun q hq => (hcond q hq).trans (hstep.cond q hq), hnone, fun u hu => ?_, fun q ho hq hlive => ?_, fun ⟨q, hq, hlive⟩ => ?_⟩
  · have hnot := hW u (hshrink u hu)
    rw [groupOf_pt] at hnot
    exact fun he => hnot (by rw [he])
  · rw [← record?_eq_of_notice?_eq (hstay q ho)]
    refine foldl_apart (fun _ p h => tableOk_retireAt h p) (fun _ p h => touches_retireAt h p) shrinks_retireAt hok1 (fun hmem => ?_) ho
      fun hwait => ?_
    · exact hq ((hgroup q).symm.trans (mem_groupNotices.1 hmem).1)
    · obtain ⟨n, hn⟩ := Option.ne_none_iff_exists'.1 ((hstay q ho).symm ▸ hlive)
      exact not_waits_of_notice? hok1 hn hwait
  · have ho : q ≠ panelOverflow := fun he => hP (he ▸ hq)
    obtain ⟨n, hn⟩ := Option.ne_none_iff_exists'.1 hlive
    have hn1 := (hstay q ho).trans hn
    obtain ⟨x, hokx, -, hrec, -, hframe⟩ := foldl_at (fun _ p h => tableOk_retireAt h p) (fun _ p h => touches_retireAt h p)
      shrinks_retireAt (l := w1.st.groupNotices g) (nodup_points hok1 _) hok1
      (mem_groupNotices.2 ⟨(hgroup q).trans hq, by rw [hn1]; simp⟩) ho (not_waits_of_notice? hok1 hn1)
    refine flagged_framed hframe ?_
    rw [record?_of_notice? hn1] at hrec
    obtain ⟨m, hm, -⟩ := State.record?_eq_some_iff.1 hrec
    rw [Work.retireAt, hm]
    exact flagged_retire hokx m

/-- R16, R81: the conditions after the third step. -/
theorem active_cleared_links {w b : Work} {g : GroupNo} (h : GroupEmptied w b g) (u : UserPt) :
    (b.st.clearGroupLinks g).active (UserPt.pt u) =
      (w.st.active (UserPt.pt u) && !(decide ((w.st.pointRec u).group = g) && w.st.linkSourced u)) := by
  have hsource : b.st.linkSourced u = w.st.linkSourced u := by
    unfold State.linkSourced State.bindingLine State.lineRec
    rw [h.frame.lq]
  rw [active_clearGroupLinks, userOf_pt]
  dsimp only
  rw [State.groupLinkActive, pointRec_framed h.frame, hsource, h.cond _ (pt_ne_panelOverflow u)]
  cases w.st.active (UserPt.pt u) <;> simp

/-- Settles O30: withdrawals and retirements empty the group, and the points that go CLEAR release their children. -/
theorem groupDisableEmptiesTheGroup : Obligations.GroupDisableEmptiesTheGroup := by
  intro s a hok hserve ⟨hs, hm⟩ h1 h2 hold hnew
  rw [exec_writeGroup h1 h2, request_act_replied hs, writeGroup_disables hm hold hnew, disableGroup_eq]
  have hfits := fits_putGroup_disabled (a := a) ((serviceOk_iff hok).1 hserve)
  have hempty := groupEmptied_spec (w := s.work.onState fun s => s.putGroup a) hm (hok.congr rfl rfl rfl) a.group hfits
  generalize (s.work.onState fun s => s.putGroup a).groupEmptied a.group = b at hempty ⊢
  have hlinks := active_cleared_links hempty
  have hsame := sameTable_replied s
    (((b.onState fun s => s.clearGroupLinks a.group).releaseAll (b.st.groupLinkChildren a.group)).setMarker a.group none) 0x12 a.payload .ok []
  have hrelease := alters_releaseAll (b.onState fun s => s.clearGroupLinks a.group) (b.st.groupLinkChildren a.group)
  have hpt := pt_releaseAll (b.onState fun s => s.clearGroupLinks a.group) (b.st.groupLinkChildren a.group)
  have hcond (q : Pt) : (((b.onState fun s => s.clearGroupLinks a.group).releaseAll (b.st.groupLinkChildren a.group)).setMarker a.group none).st.active q =
      (b.st.clearGroupLinks a.group).active q := by
    show ((b.onState fun s => s.clearGroupLinks a.group).releaseAll (b.st.groupLinkChildren a.group)).st.active q = _
    rw [State.active, hpt]
    rfl
  have hframe : Framed (s.putGroup a)
      (((b.onState fun s => s.clearGroupLinks a.group).releaseAll (b.st.groupLinkChildren a.group)).setMarker a.group none).st :=
    ((hempty.frame.trans (framed_clearGroupLinks b.st a.group)).trans hrelease.frame).trans (framed_setMarker _ _ _)
  have hrec {q : Pt} {n : Notice} (ho : q ≠ panelOverflow) (hq : s.groupOf q ≠ some a.group) (hn : s.notice? q = some n) :
      b.st.record? q = some n.timeless :=
    (hempty.others q ho hq (by rw [show (s.work.onState fun s => s.putGroup a).st.notice? q = some n from hn]; simp)).trans
      (record?_of_notice? (s := s) hn)
  have hparent (v : UserPt) : b.st.pointRec v = s.pointRec v := pointRec_framed hempty.frame v
  have hevent := eventFrame_replied (eventFrame_settle s hframe) 0x12 a.payload .ok []
  rw [show s.putGroup a = s.withPt { s.pt with
    groups := s.pt.groups.set a.group.val
      { s.groupRec a.group with level := a.level, enabled := false, firstOutEnable := a.firstOutEnable } } by rw [← hnew]; rfl] at hevent
  refine ⟨_, rfl, hevent, rfl, ?marker, fun u v hu hlink ha hv hgv => ?release, fun n hn hg => ?gone, fun u hu => ?pend, fun u => ?conds, ?silent,
    fun u n hu hn => ?others, fun ⟨n, hn, hg⟩ => ?flag⟩
  case marker =>
    rw [hsame.groupRec, groupRec_setMarker, if_pos rfl]
  case release =>
    have hoff : (b.st.clearGroupLinks a.group).active (UserPt.pt u) = false := by
      rw [hlinks]
      show (s.active (UserPt.pt u) && !(decide ((s.pointRec u).group = a.group) && s.linkSourced u)) = false
      rw [hu, hlink, ha]
      simp
    have hchild : (b.st.clearGroupLinks a.group).suppressed (UserPt.pt v) = false :=
      (suppressed_child (s := b.st.clearGroupLinks a.group) (by rw [← hv]; exact congrArg PointRec.parent (hparent v))).trans hoff
    refine childReleased_of (x := b.st.clearGroupLinks a.group) hchild ?_ hempty.frame.shelf fun n hn => ⟨?_, ?_⟩
    · rw [suppressed_child (u := u), hsame.active, hcond, hoff]
      rw [State.pointRec, hsame.pt]
      rw [← hv]
      exact congrArg PointRec.parent (pointRec_framed hframe v)
    · exact hrec (pt_ne_panelOverflow v) (by rw [groupOf_pt]; simpa using hgv) hn
    · have hlive : b.st.notice? (UserPt.pt v) ≠ none := by
        rw [Ne, ← State.record?_eq_none, hrec (pt_ne_panelOverflow v) (by rw [groupOf_pt]; simpa using hgv) hn]
        simp
      have hmem : UserPt.pt v ∈ b.st.groupLinkChildren a.group := by
        obtain ⟨m, hm'⟩ := Option.ne_none_iff_exists'.1 hlive
        obtain ⟨hmem, hmp⟩ := notice?_some hm'
        have hactive : b.st.groupLinkActive a.group u = true := by
          have hsource : b.st.linkSourced u = s.linkSourced u := by
            unfold State.linkSourced State.bindingLine State.lineRec
            rw [hempty.frame.lq]
            rfl
          rw [State.groupLinkActive, hparent, hsource, hempty.cond _ (pt_ne_panelOverflow u), hlink, hu]
          show (decide _ && true && s.active (UserPt.pt u)) = true
          rw [ha]
          simp
        refine List.mem_map.2 ⟨m, List.mem_filter.2 ⟨hmem, ?_⟩, hmp⟩
        rw [hmp, parentOf_pt, hparent, hv]
        exact hactive
      exact (released_releaseAll (nodup_points hempty.table _) (b.onState fun s => s.clearGroupLinks a.group) hmem).congr rfl rfl
        (hsame.notice? _) fun h => by rw [hsame.flagged]; exact h
  case gone =>
    have hgroup : s.groupOf n.point = some a.group := by
      rw [← hg]
      refine (groupOf_framed (a := s.putGroup a) hframe n.point).symm.trans ?_
      unfold State.groupOf State.pointRec
      rw [hsame.pt]
    have hnone : b.st.phase? n.point = none := by
      rw [State.phase?, hempty.gone n.point hgroup]
      rfl
    have hphase := (phase?_releaseAll (b.onState fun s => s.clearGroupLinks a.group) (b.st.groupLinkChildren a.group) n.point).trans hnone
    rw [State.phase?, Option.map_eq_none_iff] at hphase
    exact notice?_none.1 ((hsame.notice? n.point).trans hphase) n hn rfl
  case pend =>
    rw [hsame.nt] at hu
    rw [State.pointRec, hsame.pt]
    have hu' : u ∈ b.st.nt.pendSet := by
      rw [← show ((b.onState fun s => s.clearGroupLinks a.group).releaseAll (b.st.groupLinkChildren a.group)).st.nt.pendSet = b.st.nt.pendSet
        from pendSet_releaseAll _ _]
      exact hu
    have hnot := hempty.pend u hu'
    rw [show (s.work.onState fun s => s.putGroup a).st.pointRec u = s.pointRec u from rfl] at hnot
    exact fun he => hnot (by rw [← he]; exact (congrArg PointRec.group (pointRec_framed hframe u)).symm)
  case conds =>
    rw [hsame.active, hcond, hlinks]
    rfl
  case silent =>
    rw [hsame.active, hcond, active_clearGroupLinks_of_ne (by rw [groupOf_of_userOf_none _ rfl]; simp)]
    exact hempty.cond hostSilent (by decide)
  case others =>
    have hrecb := hrec (pt_ne_panelOverflow u) (by rw [groupOf_pt]; simpa using hu) hn
    obtain ⟨m, hm', he⟩ := State.record?_eq_some_iff.1 hrecb
    obtain ⟨k, hk, hphase, hcount, hfirst⟩ := releaseAll_keeps (b.st.groupLinkChildren a.group)
      (w := b.onState fun s => s.clearGroupLinks a.group) hm'
    have he' := Notice.timeless_eq_iff.1 he
    refine ⟨k, (hsame.notice? _).trans hk, ?_, ?_, ?_⟩
    · rw [hphase, he']
    · rw [hcount, he']
    · rw [hfirst, he']
  case flag =>
    rw [hsame.flagged]
    refine flagged_framed (((framed_clearGroupLinks b.st a.group).trans hrelease.frame).trans (framed_setMarker _ _ _)) (hempty.retired ?_)
    exact ⟨n.point, hg, by rw [show (s.work.onState fun s => s.putGroup a).st.notice? n.point = _ from hok.notice?_of_mem hn]; simp⟩

end Sys2Proof.Machine

/-! Proofs about the keys: scroll steps with their repeats, the end of the scroll hold, and the keys that act like requests. -/

namespace Sys2Proof.Machine

/-! ## The window moved by hand -/

/-- A state with Presentation's window moved, and nothing else. -/
structure WindowMoved (s x : State) : Prop where
  pres : x.pres = { s.pres with top := x.pres.top, anchor := x.pres.anchor, scrollTimer := x.pres.scrollTimer }
  rest : x = s.withPres x.pres

/-- R152: such an event requests a composition exactly if the top moved. -/
theorem settle_window {s : State} (hc : s.ChirpOk) {f : State → State} (h : WindowMoved s (f s)) :
    settle s (s.work.onState f) = if (f s).pres.top = s.pres.top then f s else (f s).requestComposition := by
  have hpresented : (f s).presented = s.presented := by rw [h.rest]; rfl
  have hview : s.viewShape = (f s).viewShape := by rw [State.viewShape, State.viewShape, hpresented]
  have hmode : (f s).pres.lineMode = s.pres.lineMode := by rw [h.pres]
  have hnt : (f s).nt = s.nt := by rw [h.rest]; rfl
  have hshelf : (f s).shelf = s.shelf := by rw [h.rest]; rfl
  have hok : (f s).ChirpOk := by rw [h.rest]; exact hc
  by_cases htop : (f s).pres.top = s.pres.top
  · have hwindow : s.windowShape = (f s).windowShape := by
      simp only [State.windowShape, State.windowNotices, hpresented, htop, hmode]
    rw [if_pos htop]
    refine settle_onState_still f hok hview ?_
    simp [compositionDue, hview, hwindow, htop, hnt, hshelf]
  · have hdue : compositionDue s (f s) = true := by simp [compositionDue, Ne.symm htop]
    have hchirp : (f s).requestComposition.chirpAfter [] = (f s).requestComposition.snd.chirp := by
      refine chirpAfter_none _ ?_
      rw [requestComposition_eq]
      exact hok
    rw [if_neg htop]
    unfold settle
    simp only [Work.onState, State.work, hview, ne_eq, not_true_eq_false, decide_false, Bool.or_self, Bool.false_and,
      Bool.false_eq_true, if_false, hdue, Bool.or_true, if_true, List.append_nil, hchirp]
    rfl

/-- R153: a request moves the composer and its dirty mark. -/
theorem requestComposition_pres (s : State) :
    s.requestComposition = s.withPres { s.pres with
      composer := s.requestComposition.pres.composer, dirty := s.requestComposition.pres.dirty } := by
  unfold State.requestComposition
  split <;> rfl

/-- What a moved window leaves: the move, and the composer at work if the top moved. -/
theorem settle_window_spec {s : State} (hc : s.ChirpOk) {f : State → State} (h : WindowMoved s (f s)) {t : State}
    (ht : t = settle s (s.work.onState f)) :
    t = s.withPres { (f s).pres with composer := t.pres.composer, dirty := t.pres.dirty } ∧
      ((f s).pres.top = s.pres.top → t.pres.composer = s.pres.composer ∧ t.pres.dirty = s.pres.dirty) ∧
      ((f s).pres.top ≠ s.pres.top → t.pres.composer ≠ .idle ∧ t.pres.composer ≠ .ready) := by
  rw [settle_window hc h] at ht
  subst ht
  split
  · next htop =>
    refine ⟨h.rest, fun _ => ?_, fun hne => absurd htop hne⟩
    rw [h.pres]
    exact ⟨rfl, rfl⟩
  · next htop =>
    refine ⟨?_, fun he => absurd he htop, fun _ => ?_⟩
    · have hover (p : Presentation) : (f s).withPres p = s.withPres p := by rw [h.rest]; rfl
      exact (requestComposition_pres (f s)).trans (hover _)
    · obtain ⟨-, -, -, hidle, hready⟩ := requestComposition_window (f s)
      exact ⟨hidle, hready⟩

/-! ## Scroll steps -/

/-- R143: the top after a scroll step. -/
def State.steppedTop (s : State) (up : Bool) : Nat :=
  if up then s.pres.top - 1 else if s.pres.top < s.topLimit then s.pres.top + 1 else s.pres.top

theorem scrollStep_eq (s : State) (up : Bool) :
    s.scrollStep up = s.withPres { s.pres with
      top := s.steppedTop up, anchor := s.presented[s.steppedTop up]?.map (·.point),
      scrollTimer := some { left := s.pres.scrollHold, due := false } } := rfl

theorem windowMoved_scrollStep (s : State) (up : Bool) : WindowMoved s (s.scrollStep up) := ⟨rfl, rfl⟩

theorem exec_keyRepeat_made {s : State} (h : s.inService = true) {k : KeyNo} (hk : (s.keyRec k).state = .made)
    (ht : (s.keyRec k).repeatTimer ≠ none) : exec (.keyRepeatExpiry k) s = .next ((s.rearmRepeat k).takePress k) := by
  show Host.Outcome.next _ = _
  rw [h, Option.isSome_iff_ne_none.2 ht, hk]
  rfl

theorem exec_keyRepeat_breaking {s : State} (h : s.inService = true) {k : KeyNo} (hk : (s.keyRec k).state = .breaking)
    (ht : (s.keyRec k).repeatTimer ≠ none) : exec (.keyRepeatExpiry k) s = .next (s.rearmRepeat k) := by
  show Host.Outcome.next _ = _
  rw [h, Option.isSome_iff_ne_none.2 ht, hk]
  rfl

theorem press_scroll {k : KeyNo} (hk : k = 4 ∨ k = 5) (w : Work) :
    w.press (keyNamed k) = w.onState fun s => s.scrollStep (decide (k = 4)) := by
  rcases hk with rfl | rfl <;> rfl

/-- R109, R114: a scroll key's press that acts. -/
theorem takePress_scroll {s : State} {k : KeyNo} (hk : k = 4 ∨ k = 5) (hacts : s.pressActs k = true) :
    s.takePress k = settle s (s.work.onState fun s => s.scrollStep (decide (k = 4))) := by
  rw [takePress_acts hacts, press_scroll hk]

/-- Settles O56: a scroll press moves the window of the state with the key's record written. -/
theorem scrollKeysMoveTheWindow : Obligations.ScrollKeysMoveTheWindow := by
  intro s k hc hs q acts top keyed scrolled
  have hscrolled (x : KeyRec) (hk : k = 4 ∨ k = 5) (hacts : acts) : scrolled x ((s.putKey k x).takePress k) := by
    have hact : (s.putKey k x).pressActs k = true := (pressActs_iff s k).2 ⟨hacts.2.1, hacts.2.2, .inl hacts.1⟩
    obtain ⟨heq, hstill, hmoved⟩ := settle_window_spec (s := s.putKey k x) (f := fun s => s.scrollStep (decide (k = 4))) hc
      (windowMoved_scrollStep _ _) (takePress_scroll hk hact)
    have htop : (s.putKey k x).steppedTop (decide (k = 4)) = top := by
      show (if decide (k = 4) = true then _ else _) = if k = 4 then _ else _
      rcases hk with rfl | rfl <;> rfl
    refine ⟨?_, fun he => hstill (htop.trans he), fun hne => hmoved fun he => hne (htop.symm.trans he)⟩
    rw [scrollStep_eq, htop] at heq
    exact heq
  refine ⟨fun hk hst hacts => ?_, fun hk hst ht hacts => ?_, fun ht hwhy => ?_, fun c hm ht hd => ?_⟩
  · rw [exec_keyDebounce_making hs hst]
    refine ⟨_, rfl, ?_⟩
    rw [State.pressed, (repeats_keyNamed k).2 hk]
    exact hscrolled _ hk hacts
  · rw [exec_keyRepeat_made hs hst ht]
    exact ⟨_, rfl, hscrolled _ hk hacts⟩
  · rcases hwhy with hst | ⟨hst, hwhy⟩
    · exact exec_keyRepeat_breaking hs hst ht
    · have hignored : (s.rearmRepeat k).pressActs k = false := by
        rw [Bool.eq_false_iff, Ne, State.rearmRepeat, pressActs_putKey, pressActs_iff]
        rintro ⟨htest, hlock, hmode⟩
        rcases hwhy with h | ⟨hk, hno⟩
        · rw [h] at htest; cases htest
        · rcases hmode with hrun | h3
          · exact hno ⟨hrun, htest, hlock⟩
          · rcases hk with rfl | rfl <;> exact absurd h3 (by decide)
      rw [exec_keyRepeat_made hs hst ht, takePress_ignored hignored]
      rfl
  · have hexec : exec .scrollHoldExpiry s = .next (settle s (s.work.onState State.scrollHome)) := by
      show Host.Outcome.next (if _ then _ else _) = _
      rw [if_pos (by rw [hs, ht]; exact hd)]
      rfl
    have hhome : s.scrollHome = s.withPres { s.pres with top := 0, anchor := s.presented[0]?.map (·.point), scrollTimer := none } := by
      unfold State.scrollHome
      rw [hm]
      rfl
    have hwindow : WindowMoved s s.scrollHome := by rw [hhome]; exact ⟨rfl, rfl⟩
    obtain ⟨heq, -, hmoved⟩ := settle_window_spec hc hwindow rfl
    rw [hexec]
    rw [hhome] at hmoved
    refine ⟨_, rfl, ?_, fun hne => hmoved (Ne.symm hne)⟩
    rw [show s.scrollHome.pres = { s.pres with top := 0, anchor := s.presented[0]?.map (·.point), scrollTimer := none } by
      rw [hhome]; rfl] at heq
    exact heq

end Sys2Proof.Machine

/-! # ACK, SILENCE and RESET presses (O55): the keypad is beside the Notice Table -/

namespace Sys2Proof.Machine

/-- Another keypad in the same event. -/
def Work.withKp (w : Work) (k : Keypad) : Work := w.onState fun s => s.withKp k

section Beside

variable (w : Work) (k : Keypad)

theorem onNt_withKp (f : NoticeTable → NoticeTable) : (w.withKp k).onNt f = (w.onNt f).withKp k := rfl

theorem setMarker_withKp (g : GroupNo) (m : Option UserPt) : (w.withKp k).setMarker g m = (w.setMarker g m).withKp k := rfl

theorem putCond_withKp (p : Pt) (v : Bool) : (w.withKp k).putCond p v = (w.putCond p v).withKp k := rfl

theorem flag_withKp (e : AttnEvent) : (w.withKp k).flag e = (w.flag e).withKp k := rfl

theorem change_withKp (p : Pt) (f : Notice → Notice) : (w.withKp k).change p f = (w.change p f).withKp k := rfl

theorem notice?_withKp (p : Pt) : (w.withKp k).st.notice? p = w.st.notice? p := rfl

theorem newNotice_withKp (kind : RaiseKind) (p : Pt) (phase : Phase) (field : NoticeField) :
    (w.withKp k).st.newNotice kind p phase field = w.st.newNotice kind p phase field := rfl

theorem dropMarker_withKp (n : Notice) : (w.withKp k).dropMarker n = (w.dropMarker n).withKp k := by
  have hgroup : (w.withKp k).st.groupOf n.point = w.st.groupOf n.point := rfl
  simp only [Work.dropMarker, hgroup]
  split <;> rfl

theorem grantMarker_withKp (b : Bool) (p : Pt) : (w.withKp k).grantMarker b p = (w.grantMarker b p).withKp k := by
  unfold Work.grantMarker
  split <;> rfl

theorem create_withKp (kind : RaiseKind) (p : Pt) (phase : Phase) (field : NoticeField) :
    (w.withKp k).create kind p phase field = (w.create kind p phase field).withKp k := by
  simp only [Work.create, newNotice_withKp, onNt_withKp, grantMarker_withKp]
  split <;> rfl

theorem remove_withKp (n : Notice) (b : Bool) : (w.withKp k).remove n b = (w.remove n b).withKp k := by
  simp only [Work.remove, dropMarker_withKp, onNt_withKp]
  split <;> rfl

theorem reRaise_withKp (kind : RaiseKind) (n : Notice) (field : NoticeField) :
    (w.withKp k).reRaise kind n field = (w.reRaise kind n field).withKp k := by
  have hgrant : (w.withKp k).st.grantsFirstOut kind n.point = w.st.grantsFirstOut kind n.point := rfl
  have harrival : (w.withKp k).st.nt.arrival = w.st.nt.arrival := rfl
  simp only [Work.reRaise, hgrant, harrival, onNt_withKp, grantMarker_withKp]
  rfl

theorem clearSystem_withKp (p : Pt) : (w.withKp k).clearSystem p = (w.clearSystem p).withKp k := by
  simp only [Work.clearSystem, notice?_withKp, remove_withKp, change_withKp]
  split
  · rfl
  · split <;> rfl

theorem setSystem_clear_withKp (p : Pt) : (w.withKp k).setSystem p false = (w.setSystem p false).withKp k := by
  have hactive : (w.withKp k).st.active p = w.st.active p := rfl
  have hdelivers : ((w.putCond p false).withKp k).st.delivers p = (w.putCond p false).st.delivers p := rfl
  simp only [Work.setSystem, hactive, putCond_withKp, hdelivers, clearSystem_withKp, Bool.false_eq_true, if_false]
  split
  · rfl
  · split <;> rfl

theorem offerRecord_withKp : (w.withKp k).offerRecord = w.offerRecord.withKp k := by
  have hpick : (w.withKp k).st.arbiterPick = w.st.arbiterPick := rfl
  have hphase (u : UserPt) : (w.withKp k).st.admissionPhase u = w.st.admissionPhase u := rfl
  have hnt (v : Work) : (v.withKp k).st.nt = v.st.nt := rfl
  simp only [Work.offerRecord, hpick, hphase, onNt_withKp, create_withKp, hnt, setSystem_clear_withKp]
  split
  · rfl
  · split <;> rfl

theorem retire_withKp (n : Notice) : (w.withKp k).retire n = (w.retire n).withKp k := by
  simp only [Work.retire, remove_withKp, offerRecord_withKp]
  split <;> rfl

theorem acked_withKp (n : Notice) (phase : Phase) : (w.withKp k).acked n phase = (w.acked n phase).withKp k := by
  simp only [Work.acked, dropMarker_withKp, change_withKp]

theorem ack_withKp (p : Pt) : (w.withKp k).ack p = (w.ack p).withKp k := by
  have hcls : (w.withKp k).st.classOf p = w.st.classOf p := rfl
  have hseq : (w.withKp k).st.seqOf p = w.st.seqOf p := rfl
  simp only [Work.ack, notice?_withKp, hcls, hseq, acked_withKp, retire_withKp]
  split
  · rfl
  · split
    · rfl
    · split
      · rfl
      · rfl
      · split <;> rfl
      · split <;> rfl

theorem resetAt_withKp (p : Pt) : (w.withKp k).resetAt p = (w.resetAt p).withKp k := by
  have hcls : (w.withKp k).st.classOf p = w.st.classOf p := rfl
  have hseq : (w.withKp k).st.seqOf p = w.st.seqOf p := rfl
  simp only [Work.resetAt, notice?_withKp, hcls, hseq, retire_withKp]
  split
  · rfl
  · split <;> rfl

theorem silenceAt_withKp (p : Pt) : (w.withKp k).silenceAt p = (w.silenceAt p).withKp k := rfl

end Beside

/-- Steps that leave the keypad beside themselves do so in a row. -/
theorem foldl_withKp {f : Work → Pt → Work} (k : Keypad) (h : ∀ w p, f (w.withKp k) p = (f w p).withKp k) (l : List Pt) (w : Work) :
    l.foldl f (w.withKp k) = (l.foldl f w).withKp k := by
  induction l generalizing w with
  | nil => rfl
  | cons p l ih => rw [List.foldl_cons, h, ih, List.foldl_cons]

theorem ackAll_withKp (w : Work) (k : Keypad) (l : List Pt) : (w.withKp k).ackAll l = (w.ackAll l).withKp k :=
  foldl_withKp k (ack_withKp · k) l w

theorem resetAll_withKp (w : Work) (k : Keypad) (l : List Pt) : (w.withKp k).resetAll l = (w.resetAll l).withKp k :=
  foldl_withKp k (resetAt_withKp · k) l w

theorem silenceAll_withKp (w : Work) (k : Keypad) : (w.withKp k).silenceAll = w.silenceAll.withKp k := by
  show (w.st.soundingScope.foldl Work.silenceAt (w.withKp k)).onState _ = _
  rw [foldl_withKp k (silenceAt_withKp · k)]
  rfl

/-- R109 to R112: the event of a press of ACK, SILENCE or RESET that acts, before OPERATOR is set. -/
def State.keyEvent (s : State) (k : KeyNo) : Work :=
  if k = 0 then s.work.ackAll (s.presentedScope s.ackable)
  else if k = 1 then s.work.silenceAll
  else s.work.resetAll (s.presentedScope Notice.resettable)

/-- The event of a key's press does not see the key's record. -/
theorem press_keyEvent (s : State) (kp : Keypad) {k : KeyNo} (hk : k = 0 ∨ k = 1 ∨ k = 2) :
    (s.withKp kp).work.press (keyNamed k) = ((s.keyEvent k).withKp kp).flag .operator := by
  rcases hk with rfl | rfl | rfl
  · exact congrArg (Work.flag · .operator) (ackAll_withKp s.work kp _)
  · exact congrArg (Work.flag · .operator) (silenceAll_withKp s.work kp)
  · exact congrArg (Work.flag · .operator) (resetAll_withKp s.work kp _)

/-- R23, R110 to R112: the request of a notice key. -/
theorem exec_keyRequest {s : State} (hm : s.inModeNow .run) {k : KeyNo} (hk : k = 0 ∨ k = 1 ∨ k = 2) :
    ∃ kind pl, exec (if k = 0 then .acknowledge [0x02, 0x00] else if k = 1 then .silence [] else .reset [0x02, 0x00]) s =
      .next ((settle s (s.keyEvent k)).replied kind pl .ok []) := by
  obtain ⟨hs, hm⟩ := hm
  rcases hk with rfl | rfl | rfl
  · refine ⟨0x22, Scope.all.payload, (exec_acknowledge hm .all).trans ?_⟩
    rw [if_neg (by simp [State.scopeEmpty]), request_act_replied hs]
    rfl
  · refine ⟨0x24, [], ?_⟩
    show Host.Outcome.next (s.request _ _ (inMode s .run _)) = _
    rw [inMode_same s .run _ hm, request_act_replied hs]
    rfl
  · refine ⟨0x23, Scope.all.payload, (exec_reset hm .all).trans ?_⟩
    rw [if_neg (by simp [State.scopeEmpty]), request_act_replied hs]
    rfl

theorem eventFrame_press (s : State) {k : KeyNo} (hk : k = 0 ∨ k = 1 ∨ k = 2) :
    EventFrame s (settle s (s.work.press (keyNamed k))) ∧ (settle s (s.work.press (keyNamed k))).link.ran = s.link.ran := by
  have hstep {w : Work} (h : TableStep s w.st) : EventFrame s (settle s w) ∧ (settle s w).link.ran = s.link.ran :=
    ⟨eventFrame_of_tableStep s h, by rw [settle_link, h.link]⟩
  rcases hk with rfl | rfl | rfl
  · exact hstep ((tableStep_ackAll s.work _).trans (tableStep_flag _ _))
  · have heq := silenceAll_eq s.work
    refine ⟨?_, by rw [settle_link]; show s.work.silencePress.st.link.ran = _; rw [Work.silencePress, heq]; rfl⟩
    obtain ⟨h1, h2, h3, h4, h5, h6, h7, h8, h9, h10⟩ := eventFrame_settle s
      (a := s.withSnd { s.snd with chirp := none }) (w := s.work.silencePress) (by
        rw [Work.silencePress, heq]; exact ⟨rfl, rfl, rfl, fun _ => rfl, rfl, rfl, rfl, rfl, rfl, _, rfl⟩)
    exact ⟨h1, h2, h3, h4, h5, h6, h7, h8, h9, h10⟩
  · exact hstep ((tableStep_resetAll s.work _).trans (tableStep_flag _ _))

/-- Neither the keypad nor OPERATOR is heard at the end of an event. -/
theorem settle_snd_press (a b : State) (w : Work) (kp : Keypad) :
    (settle a ((w.withKp kp).flag .operator)).snd = (settle b w).snd := by
  rw [settle_snd, settle_snd b, settle_chirp, settle_chirp]
  rfl

/-- Settles O55: the press runs the request's event beside the key's record, and sets OPERATOR. -/
theorem noticeKeysActLikeTheRequests : Obligations.NoticeKeysActLikeTheRequests := by
  intro s k hm hmaking htest hlock hk request
  have hnot : k ≠ 4 ∧ k ≠ 5 := by rcases hk with rfl | rfl | rfl <;> decide
  have hpressed : s.pressed k = s.withKp { s.kp with keys := s.kp.keys.set k.val { s.keyRec k with state := .made } } := by
    have hrep : (keyNamed k).repeats = false := by rcases hk with rfl | rfl | rfl <;> rfl
    rw [State.pressed, hrep]
    rfl
  have hacts : (s.pressed k).pressActs k = true := by
    rw [hpressed]
    exact (pressActs_iff s k).2 ⟨htest, hlock, .inl hm.2⟩
  obtain ⟨hframe, hran⟩ := eventFrame_press (s.pressed k) hk
  obtain ⟨kind, pl, hrequest⟩ := exec_keyRequest hm hk
  rw [exec_keyDebounce_making hm.1 hmaking, takePress_acts hacts]
  refine ⟨_, rfl, by rw [hpressed] at hframe ⊢; exact hframe, ?_⟩
  rw [hpressed, press_keyEvent s _ hk, show exec request s = _ from hrequest]
  refine ⟨?_, ?_, _, rfl, ?_, ?_, settle_snd_press _ _ _ _, ?_⟩
  · exact flagged_of_mask (f := (s.keyEvent k).st.link.flags) (by rw [settle_link]; rfl)
  · rw [hpressed, press_keyEvent s _ hk] at hran
    exact hran
  · rw [settle_nt]; exact (settle_nt s (s.keyEvent k)).symm
  · rw [settle_pt]; exact (settle_pt s (s.keyEvent k)).symm
  · rw [settle_link]
    show (s.keyEvent k).st.link.flags ||| _ = (settle s (s.keyEvent k)).link.flags ||| _
    rw [settle_link]

end Sys2Proof.Machine

/-! # Supervision expires (O21), and what setting stale flags leaves -/

namespace Sys2Proof.Machine

/-! ## Stale flags in a row -/

/-- R46: the stale flags of a list of points take a value, each in turn. -/
def Work.staleAll (w : Work) (v : Bool) (l : List Pt) : Work := l.foldl (Work.setStale v) w

@[simp] theorem staleAll_nil (w : Work) (v : Bool) : w.staleAll v [] = w := rfl

theorem staleAll_cons (w : Work) (v : Bool) (p : Pt) (l : List Pt) : w.staleAll v (p :: l) = (w.setStale v p).staleAll v l := rfl

/-- R46: stale flags are records' own. -/
theorem staleAll_eq (w : Work) (v : Bool) (l : List Pt) :
    w.staleAll v l = { w with st := w.st.withNt (w.staleAll v l).st.nt } ∧ (w.staleAll v l).st.nt.pendSet = w.st.nt.pendSet := by
  induction l generalizing w with
  | nil => exact ⟨rfl, rfl⟩
  | cons p l ih =>
    have hone : w.setStale v p = { w with st := w.st.withNt (w.setStale v p).st.nt } ∧
        (w.setStale v p).st.nt.pendSet = w.st.nt.pendSet := by
      unfold Work.setStale
      split
      · split <;> exact ⟨rfl, rfl⟩
      · exact ⟨rfl, rfl⟩
    obtain ⟨heq, hpend⟩ := ih (w.setStale v p)
    rw [staleAll_cons]
    refine ⟨heq.trans ?_, hpend.trans hone.2⟩
    generalize (((w.setStale v p).staleAll v l).st.nt) = t
    rw [hone.1]
    rfl

/-- R46: each record of the list takes the flag and changes in nothing else. -/
theorem notice?_staleAll (w : Work) (v : Bool) (l : List Pt) {q : Pt} {n : Notice} (hn : w.st.notice? q = some n) :
    Holds ((w.staleAll v l).st.notice? q) fun m => if q ∈ l then m = { n with stale := v, rev := m.rev } else m = n := by
  induction l generalizing w n with
  | nil => exact ⟨n, hn, by simp⟩
  | cons p l ih =>
    rw [staleAll_cons]
    by_cases hq : q = p
    · subst hq
      obtain ⟨n1, hn1, hsame⟩ : Holds ((w.setStale v q).st.notice? q) fun m => m = { n with stale := v, rev := m.rev } := by
        rw [Work.setStale, hn]
        dsimp only
        split
        · next h => exact ⟨n, hn, by rw [← h]⟩
        · refine ⟨{ n with stale := v, rev := w.st.nt.rev + 1 }, ?_, rfl⟩
          refine (notice?_change w q (f := fun m => { m with stale := v }) (fun _ => rfl) q).trans ?_
          rw [if_pos rfl, hn]
          rfl
      obtain ⟨m, hm, hcase⟩ := ih (w.setStale v q) hn1
      refine ⟨m, hm, ?_⟩
      beta_reduce
      rw [if_pos List.mem_cons_self]
      split at hcase <;> (rw [hcase, hsame])
    · obtain ⟨m, hm, hcase⟩ := ih (w.setStale v p) (((alters_setStale v w p).notice q hq).trans hn)
      exact ⟨m, hm, by simpa [List.mem_cons, hq] using hcase⟩

theorem notice?_staleAll_none (w : Work) (v : Bool) (l : List Pt) {q : Pt} (hn : w.st.notice? q = none) :
    (w.staleAll v l).st.notice? q = none := by
  induction l generalizing w with
  | nil => exact hn
  | cons p l ih =>
    refine ih (w.setStale v p) ?_
    by_cases hq : q = p
    · subst hq
      rw [Work.setStale, hn]
      exact hn
    · exact ((alters_setStale v w p).notice q hq).trans hn

theorem phase?_staleAll (w : Work) (v : Bool) (l : List Pt) (q : Pt) : (w.staleAll v l).st.phase? q = w.st.phase? q := by
  obtain hn | ⟨n, hn⟩ := Option.eq_none_or_eq_some (w.st.notice? q)
  · rw [State.phase?, notice?_staleAll_none w v l hn, State.phase?, hn]
  · obtain ⟨m, hm, hcase⟩ := notice?_staleAll w v l hn
    rw [State.phase?, hm, State.phase?, hn]
    have hphase : m.phase = n.phase := by split at hcase <;> rw [hcase]
    exact congrArg some hphase

theorem mem_linkNotices {s : State} (h : s.TableOk) {p : Pt} {n : Notice} (hn : s.notice? p = some n) :
    p ∈ s.linkNotices ↔ n.origin = .link := by
  simp only [State.linkNotices, List.mem_map, List.mem_filter, decide_eq_true_eq]
  constructor
  · rintro ⟨m, ⟨hmem, horigin⟩, rfl⟩
    rw [h.notice?_of_mem hmem] at hn
    cases hn
    exact horigin
  · exact fun horigin => ⟨n, ⟨(notice?_some hn).1, horigin⟩, (notice?_some hn).2⟩

/-! ## A raise of a system point -/

/-- R25: the phase that a raise leaves where it is not a refresh. -/
theorem raiseNotice_alert {w : Work} {p : Pt} (hclass : w.st.classOf p ≠ .indication)
    (hstill : ∀ n, w.st.notice? p = some n → n.phase = .fleeting ∨ n.phase = .returned) (kind : RaiseKind) (f : NoticeField) :
    (w.raiseNotice kind p f).st.phase? p = some .alert ∧ (w.raiseNotice kind p f).st.flagged .newAlert = true := by
  obtain hn | ⟨n, hn⟩ := Option.eq_none_or_eq_some (w.st.notice? p)
  · have hcreate : w.raiseNotice kind p f = w.create kind p .alert f := by
      rw [Work.raiseNotice, hn, PointClass.raisedPhase, if_neg hclass]
    rw [hcreate]
    refine ⟨?_, ?_⟩
    · rw [State.phase?_eq_record?, record?_create hn, if_pos rfl]; rfl
    · rw [Work.create, if_pos rfl]
      exact flagged_of_mask rfl
  · have hpt := (notice?_some hn).2
    rw [raiseNotice_again hn (hstill n hn)]
    refine ⟨?_, flagged_of_mask rfl⟩
    rw [State.phase?_eq_record?, record?_reRaise, if_pos hpt.symm, hpt, hn]
    rfl

/-- R5, R24, R25: a system point that becomes ACTIVE in RUN is put into ALERT. -/
theorem setSystem_raise {w : Work} {p : Pt} (hp : userOf p = none) (hm : w.st.ctl.mode = .run) (ha : w.st.active p = false)
    (hstill : ∀ n, w.st.notice? p = some n → n.phase = .fleeting ∨ n.phase = .returned) :
    (w.setSystem p true).st.phase? p = some .alert ∧ (w.setSystem p true).st.flagged .newAlert = true := by
  have hclass : w.st.classOf p ≠ .indication := by
    rw [State.classOf, hp]
    exact (by decide : PointClass.alarm ≠ .indication)
  have hdelivers : (w.putCond p true).st.delivers p = true := by
    rw [State.delivers, groupOf_of_userOf_none _ hp, Bool.and_true, decide_eq_true_iff]
    exact hm
  have hset : w.setSystem p true = (w.putCond p true).raiseNotice .system p .none := by
    rw [Work.setSystem, ha, if_neg Bool.false_ne_true]
    dsimp only
    rw [if_pos hdelivers, if_pos rfl]
  rw [hset]
  exact raiseNotice_alert (w := w.putCond p true) hclass hstill _ _

theorem exec_supervisionExpiry {s : State} (h : s.inService = true) (hsup : s.link.sup = .running) {c : Countdown}
    (hc : s.link.supTimer = some c) (hdue : c.due = true) : exec .supervisionExpiry s = .next (settle s s.work.supervisionExpiry) := by
  show Host.Outcome.next (if _ then _ else _) = _
  rw [if_pos (by rw [h, hsup, hc]; exact hdue)]
  rfl

/-- Settles O21: the raise of HOST SILENT reaches its notice alone, and the stale flags change nothing else of a record. -/
theorem supervisionExpiryRaisesHostSilent : Obligations.SupervisionExpiryRaisesHostSilent := by
  intro s c hok hservice hm hsup hc hdue
  obtain ⟨hs, hm⟩ := hm
  rw [exec_supervisionExpiry hs hsup hc hdue]
  let w1 := s.work.onState fun s => s.withLink { s.link with sup := .expired, supTimer := none }
  let w2 := w1.setSystem hostSilent true
  have hwork : s.work.supervisionExpiry = w2.staleAll true w2.st.linkNotices := rfl
  obtain ⟨hstale, hpend⟩ := staleAll_eq w2 true w2.st.linkNotices
  have hraise : Touches (· = hostSilent) w1 w2 := touches_setSystem w1 hostSilent true
  obtain ⟨hcond, hpendSet⟩ := setSystem_keeps w1 hostSilent true
  have hsame := sameTable_settle s s.work.supervisionExpiry
  have hactive (q : Pt) : (settle s s.work.supervisionExpiry).active q = if q = hostSilent then true else s.active q := by
    rw [hsame.active, hwork, hstale]
    exact hcond q
  refine ⟨_, rfl, eventFrame_settle s ?_, ?_, fun p hp => ?_, ?_, fun ha => ?_, fun p n hp hn => ?_⟩
  · rw [hwork]
    exact hraise.frame.trans (by rw [hstale]; exact ⟨rfl, rfl, rfl, fun _ => rfl, rfl, rfl, rfl, rfl, rfl, 0#8, by rw [BitVec.or_zero]; rfl⟩)
  · rw [hactive, if_pos rfl]
  · rw [hactive, if_neg (by simpa using hp)]
  · rw [hsame.nt, hwork, hpend]
    exact hpendSet
  · have hstill (n : Notice) (hn : s.notice? hostSilent = some n) : n.phase = .fleeting ∨ n.phase = .returned := by
      obtain ⟨hphase, -⟩ := (((serviceOk_iff hok).1 hservice).notice hostSilent not_false).of_notice? hn
      rw [ha] at hphase
      revert hphase
      cases n.phase <;> decide
    obtain ⟨halert, hflag⟩ := setSystem_raise (w := w1) (p := hostSilent) rfl hm ha hstill
    have hphase : (settle s s.work.supervisionExpiry).phase? hostSilent = some .alert := by
      rw [State.phase?, hsame.notice?, hwork]
      exact (phase?_staleAll w2 true _ hostSilent).trans halert
    refine ⟨?_, ?_⟩
    · obtain ⟨m, hm, hp⟩ := Option.map_eq_some_iff.1 hphase
      exact ⟨m, hm, hp⟩
    · rw [hsame.flagged, hwork, hstale]
      exact hflag
  · obtain ⟨n2, hn2, hsame2⟩ := holds_of_record?_eq (hraise.record p hp) hn
    obtain ⟨m, hm, hcase⟩ := notice?_staleAll w2 true w2.st.linkNotices hn2
    refine ⟨m, (hsame.notice? p).trans hm, ?_⟩
    have horigin : p ∈ w2.st.linkNotices ↔ n.origin = .link := by
      have hok2 : w2.st.TableOk := tableOk_setHostSilent (w := w1) (hok.congr rfl rfl rfl) true
      rw [mem_linkNotices hok2 hn2, hsame2]
    beta_reduce
    split
    · next h =>
      rw [if_pos (horigin.2 h)] at hcase
      rw [hcase, hsame2]
    · next h =>
      rw [if_neg (mt horigin.1 h)] at hcase
      rw [hcase, hsame2]

end Sys2Proof.Machine

/-! # The end of a transaction (O18): what supervision moves of the Link, and what a judgement moves -/

namespace Sys2Proof.Machine

/-- State b is state a but for conditions and notices, supervision and the flags: what hearing the host can move. -/
structure Heard (a b : State) : Prop where
  frame : Framed (a.withLink b.link) b
  link : b.link = { a.link with sup := b.link.sup, supTimer := b.link.supTimer, flags := b.link.flags }

theorem Framed.heard {a b : State} (h : Framed a b) : Heard a b := by
  obtain ⟨m, hm⟩ := h.link
  refine ⟨⟨h.pending, h.ctl, h.points, h.group, h.shelf, h.lq, h.kp, h.snd, h.pres, 0#8, by rw [BitVec.or_zero]; rfl⟩, ?_⟩
  rw [hm]

theorem Heard.trans {a b c : State} (h : Heard a b) (k : Heard b c) : Heard a c := by
  obtain ⟨⟨hpending, hctl, hpoints, hgroup, hshelf, hlq, hkp, hsnd, hpres, -⟩, hlink⟩ := h
  obtain ⟨⟨kpending, kctl, kpoints, kgroup, kshelf, klq, kkp, ksnd, kpres, m, hm⟩, klink⟩ := k
  refine ⟨⟨kpending.trans hpending, kctl.trans hctl, kpoints.trans hpoints, fun g => ?_, kshelf.trans hshelf, klq.trans hlq,
    kkp.trans hkp, ksnd.trans hsnd, kpres.trans hpres, m, hm⟩, ?_⟩
  · rw [kgroup g]
    exact congrArg (fun r : GroupRec => { r with marker := (c.groupRec g).marker }) (hgroup g)
  · rw [klink, hlink]

theorem Heard.refl (a : State) : Heard a a := (Framed.refl a).heard

/-- Supervision alone. -/
theorem heard_withSup (a : State) (v : Supervision) (c : Option Countdown) :
    Heard a (a.withLink { a.link with sup := v, supTimer := c }) :=
  ⟨⟨rfl, rfl, rfl, fun _ => rfl, rfl, rfl, rfl, rfl, rfl, 0#8, by rw [BitVec.or_zero]; rfl⟩, rfl⟩

theorem framed_staleAll (w : Work) (v : Bool) (l : List Pt) : Framed w.st (w.staleAll v l).st := by
  rw [(staleAll_eq w v l).1]
  exact ⟨rfl, rfl, rfl, fun _ => rfl, rfl, rfl, rfl, rfl, rfl, 0#8, by rw [BitVec.or_zero]; rfl⟩

/-- R172: the host's return reaches HOST SILENT and the stale flags. -/
theorem framed_hostReturn (w : Work) : Framed w.st w.hostReturn.st :=
  (touches_setSystem w hostSilent false).frame.trans (framed_staleAll _ false _)

theorem heard_restartSupervision (w : Work) : Heard w.st w.restartSupervision.st := by
  unfold Work.restartSupervision
  split
  · exact .refl _
  · exact heard_withSup _ _ _
  · exact (framed_hostReturn w).heard.trans (heard_withSup w.hostReturn.st _ _)

/-- R163: the Link's own part of a judgement, and LINK_FAULT of a faulty frame. -/
def Work.judged (w : Work) (j : Judgement) : Work :=
  if j.faulty then (w.onState fun s => s.withLink (s.link.judged j)).flag .linkFault
  else w.onState fun s => s.withLink (s.link.judged j)

theorem transaction_eq (w : Work) (j : Judgement) :
    w.transaction j = if j.restarts then (w.judged j).restartSupervision else w.judged j := rfl

theorem judged_sound (w : Work) {j : Judgement} (h : j.faulty = false) :
    w.judged j = w.onState fun s => s.withLink (s.link.judged j) := by
  rw [Work.judged, h]
  rfl

theorem judged_faulty (w : Work) {j : Judgement} (h : j.faulty = true) :
    w.judged j = (w.onState fun s => s.withLink (s.link.judged j)).flag .linkFault := by
  rw [Work.judged, h]
  rfl

/-- A judgement moves the Link alone, and of its flags at most LINK_FAULT. -/
theorem judged_link (w : Work) (j : Judgement) :
    (w.judged j).st = w.st.withLink { w.st.link.judged j with flags := (w.judged j).st.link.flags } := by
  cases h : j.faulty with
  | false => rw [judged_sound w h]; rfl
  | true => rw [judged_faulty w h]; rfl

theorem heard_transaction (w : Work) (j : Judgement) : Heard (w.judged j).st (w.transaction j).st := by
  rw [transaction_eq]
  split
  · exact heard_restartSupervision _
  · exact .refl _

/-- R163: a faulty frame is judged and nothing more. -/
theorem transaction_faulty (w : Work) {j : Judgement} (h : j.faulty = true) :
    w.transaction j = (w.onState fun s => s.withLink (s.link.judged j)).flag .linkFault := by
  have hstill : j.restarts = false := by cases j <;> first | rfl | cases h
  rw [transaction_eq, hstill, judged_faulty w h]
  rfl

/-- R163, R167: a taken request. -/
theorem judged_of_request {k : Link} {j : Judgement} {x : Taken} (h : j.request? = some x) :
    k.judged j = { k with outcome := .taken, state := .working, fresh := false, taken := some x, ran := none } := by
  cases j <;> cases h
  rfl

/-- R163: without one only the outcome moves. -/
theorem judged_of_no_request {k : Link} {j : Judgement} (h : j.request? = none) : k.judged j = { k with outcome := j.outcome } := by
  cases j with
  | taken x => cases h
  | poll | badFrame | badCrc | softReset | refusedBusy | refusedUnread => rfl

/-- R159, R163: what a transaction leaves of the Link, and of everything else. -/
theorem transaction_spec (b : State) (w : Work) (j : Judgement) {t : State} (ht : t = settle b (w.transaction j)) :
    t.link = { w.st.link.judged j with sup := t.link.sup, supTimer := t.link.supTimer, flags := t.link.flags } ∧
      EventFrame (w.st.withLink t.link) t := by
  obtain ⟨hframe, hlink⟩ := heard_transaction w j
  have htlink : t.link = (w.transaction j).st.link := by rw [ht, settle_link]
  rw [judged_link] at hframe hlink
  refine ⟨?_, ?_⟩
  · rw [htlink]
    exact hlink
  · rw [htlink, ht]
    exact eventFrame_settle b hframe

/-- R159: what every judgement leaves of the Link, and its outcome. -/
theorem judged_keeps (k : Link) (j : Judgement) :
    (k.judged j).outcome = j.outcome ∧ (k.judged j).csnLow = k.csnLow ∧ (k.judged j).trans = k.trans ∧
      (k.judged j).muted = k.muted ∧ (k.judged j).enables = k.enables ∧ (k.judged j).supSetting = k.supSetting ∧
      (k.judged j).flags = k.flags := by
  cases j <;> exact ⟨rfl, rfl, rfl, rfl, rfl, rfl, rfl⟩

/-- R166: what consumption leaves. -/
theorem risen_eq (k : Link) (c : Bool) :
    k.risen c = { k.consume c with csnLow := false, trans := none, muted := false } := by
  cases c <;> rfl

theorem consume_keeps (k : Link) (c : Bool) :
    (k.consume c).enables = k.enables ∧ (k.consume c).supSetting = k.supSetting ∧ (k.consume c).flags = k.flags := by
  cases c <;> exact ⟨rfl, rfl, rfl⟩

theorem consumes_iff (tr : Transaction) (n : Nat) :
    tr.consumes n = true ↔ Holds tr.reply fun f => 5 + f.payload.length ≤ n := by
  unfold Transaction.consumes
  cases tr.reply <;> simp [Holds]

/-- Settles O18: a transaction's end in three steps, consumption, judgement, and supervision, which leaves the judgement's marks. -/
theorem transactionEndTakesItsJudgement : Obligations.TransactionEndTakesItsJudgement := by
  intro s bits stray hcsn mosi
  refine ⟨⟨length_wholeBytes bits, wholeBytes_bit bits⟩, exec_transactionEnd_unjudged hcsn, fun tr htr =>
    ⟨consumes_iff tr _, ?_⟩⟩
  intro k j hne hs hsoft
  obtain ⟨kenables, ksetting, kflags⟩ := consume_keeps s.link (tr.consumes mosi.length)
  have hk : s.link.consume (tr.consumes mosi.length) = k := rfl
  have hj : j = k.judge mosi := rfl
  have hexec : exec (.transactionEnd bits stray) s = .next (State.endTransaction (s.withLink _) j) :=
    (exec_transactionEnd_judged (stray := stray) hs hcsn htr hne)
  rw [risen_eq, show s.link.consume (tr.consumes (wholeBytes bits).length) = k from hk] at hexec
  rw [hk] at kenables ksetting kflags
  clear_value j k
  let a := s.withLink { k with csnLow := false, trans := none, muted := false }
  have hend : a.endTransaction j = settle a (a.work.transaction j) := if_neg hsoft
  obtain ⟨hlink, hframe⟩ := transaction_spec a a.work j hend
  obtain ⟨joutcome, jcsn, jtrans, jmuted, jenables, jsetting, jflags⟩ := judged_keeps a.link j
  have houtcome : (a.endTransaction j).link.outcome = j.outcome := (congrArg Link.outcome hlink).trans joutcome
  rw [hexec]
  refine ⟨_, rfl, (congrArg Link.csnLow hlink).trans jcsn, (congrArg Link.trans hlink).trans jtrans,
    (congrArg Link.muted hlink).trans jmuted, ?poll, ?badFrame, ?badCrc, ?refusedBusy, ?refusedUnread, fun x hx => ?taken,
    fun hnone => ?untaken, fun hbad => ?faulty, (congrArg Link.enables hlink).trans (jenables.trans kenables),
    (congrArg Link.supSetting hlink).trans (jsetting.trans ksetting), hframe⟩
  case poll | badFrame | badCrc | refusedBusy | refusedUnread =>
    intro h
    rw [h] at houtcome
    rw [h]
    exact houtcome
  case taken =>
    have hlink := hlink.trans (by rw [judged_of_request hx])
    obtain ⟨-, hslot⟩ := judge_taken (hj ▸ hx)
    exact ⟨(congrArg Link.outcome hlink).trans rfl, (congrArg Link.state hlink).trans rfl, (congrArg Link.taken hlink).trans rfl,
      (congrArg Link.fresh hlink).trans rfl, (congrArg Link.slot hlink).trans hslot⟩
  case untaken =>
    have hlink := hlink.trans (by rw [judged_of_no_request hnone])
    exact ⟨(congrArg Link.state hlink).trans rfl, (congrArg Link.taken hlink).trans rfl, (congrArg Link.fresh hlink).trans rfl,
      (congrArg Link.slot hlink).trans rfl, (congrArg Link.ran hlink).trans rfl⟩
  case faulty =>
    have hfaulty : j.faulty = true := by rcases hbad with h | h <;> (rw [h]; rfl)
    have hflags : (a.endTransaction j).link.flags = s.link.flags ||| AttnEvent.linkFault.mask := by
      rw [hend, transaction_faulty _ hfaulty, settle_link]
      exact congrArg (· ||| AttnEvent.linkFault.mask) (jflags.trans kflags)
    refine ⟨flagged_of_mask hflags, ?_, ?_, hflags⟩
    · rw [hend, transaction_faulty _ hfaulty, settle_nt]; rfl
    · rw [hend, transaction_faulty _ hfaulty, settle_pt]; rfl

end Sys2Proof.Machine

/-! # Supervision and the host's return (O19) -/

namespace Sys2Proof.Machine

/-- R26, R68: a system point in RUN whose condition goes CLEAR. -/
theorem setSystem_clear {w : Work} {p : Pt} (hp : userOf p = none) (hm : w.st.ctl.mode = .run) (ha : w.st.active p = true) :
    w.setSystem p false = (w.putCond p false).clearSystem p := by
  have hdelivers : (w.putCond p false).st.delivers p = true := by
    rw [State.delivers, groupOf_of_userOf_none _ hp, Bool.and_true, decide_eq_true_iff]
    exact hm
  rw [Work.setSystem, ha, if_neg (by decide)]
  dsimp only
  rw [if_pos hdelivers, if_neg Bool.false_ne_true]

theorem clearSystem_alert {w : Work} {p : Pt} {n : Notice} (hn : w.st.notice? p = some n) (h : n.phase = .alert) :
    (w.clearSystem p).st.phase? p = some .fleeting := by
  have heq : w.clearSystem p = w.change p fun m => { m with phase := .fleeting } := by
    rw [Work.clearSystem, hn]
    dsimp only
    rw [h]
  rw [heq, State.phase?, notice?_change w p (f := fun m => { m with phase := .fleeting }) (fun _ => rfl), if_pos rfl, hn]
  rfl

theorem clearSystem_standing {w : Work} {p : Pt} {n : Notice} (hn : w.st.notice? p = some n) (h : n.phase = .standing) :
    (w.clearSystem p).st.notice? p = none ∧ (w.clearSystem p).st.flagged .retired = true := by
  have heq : w.clearSystem p = w.remove n true := by
    rw [Work.clearSystem, hn]
    dsimp only
    rw [h]
  obtain ⟨-, hpt⟩ := notice?_some hn
  rw [heq]
  refine ⟨?_, flagged_of_mask rfl⟩
  rw [notice?_remove, if_pos hpt.symm]

/-- R170, R172: what a restarting transaction does to supervision. -/
theorem restartSupervision_off {w : Work} (h : w.st.link.sup = .off) : w.restartSupervision = w := by
  rw [Work.restartSupervision, h]

theorem restartSupervision_running {w : Work} (h : w.st.link.sup = .running) :
    w.restartSupervision = w.onState fun s => s.withLink s.link.runSupervision := by
  rw [Work.restartSupervision, h]

theorem restartSupervision_expired {w : Work} (h : w.st.link.sup = .expired) :
    w.restartSupervision = w.hostReturn.onState fun s => s.withLink s.link.runSupervision := by
  rw [Work.restartSupervision, h]

theorem transaction_restarts (w : Work) {j : Judgement} (h : j.restarts = true) :
    w.transaction j = (w.onState fun s => s.withLink (s.link.judged j)).restartSupervision := by
  have hsound : j.faulty = false := by cases j <;> first | rfl | cases h
  rw [transaction_eq, h, if_pos rfl, judged_sound w hsound]

theorem judged_supervision (k : Link) (j : Judgement) :
    (k.judged j).sup = k.sup ∧ (k.judged j).supTimer = k.supTimer := by
  cases j <;> exact ⟨rfl, rfl⟩

/-- R172: the points whose stale flags the host's return clears. -/
theorem hostReturn_eq (w : Work) :
    w.hostReturn = (w.setSystem hostSilent false).staleAll false ((w.setSystem hostSilent false).st.nt.notices.map (·.point)) := rfl

theorem mem_livePoints {s : State} {p : Pt} {n : Notice} (h : s.notice? p = some n) : p ∈ s.nt.notices.map (·.point) := by
  obtain ⟨hmem, rfl⟩ := notice?_some h
  exact List.mem_map_of_mem hmem

/-- R172: the host's return at the Point Table and the Pending Set. -/
theorem hostReturn_keeps (w : Work) :
    (∀ q, w.hostReturn.st.active q = if q = hostSilent then false else w.st.active q) ∧
      w.hostReturn.st.nt.pendSet = w.st.nt.pendSet := by
  obtain ⟨hactive, hpend⟩ := setSystem_keeps w hostSilent false
  obtain ⟨heq, hpend'⟩ := staleAll_eq (w.setSystem hostSilent false) false ((w.setSystem hostSilent false).st.nt.notices.map (·.point))
  rw [hostReturn_eq]
  refine ⟨fun q => ?_, hpend'.trans hpend⟩
  rw [heq]
  exact hactive q

theorem supSetting_hostReturn (w : Work) : w.hostReturn.st.link.supSetting = w.st.link.supSetting := by
  rw [(framed_hostReturn w).heard.link]

/-- R172: after the host's return nothing is stale. -/
theorem stale_hostReturn {w : Work} (h : w.st.TableOk) : ∀ n ∈ w.hostReturn.st.nt.notices, n.stale = false := by
  intro n hn
  have hlook := (tableOk_hostReturn h).notice?_of_mem hn
  rw [hostReturn_eq] at hlook
  obtain hnone | ⟨n1, hn1⟩ := Option.eq_none_or_eq_some ((w.setSystem hostSilent false).st.notice? n.point)
  · rw [notice?_staleAll_none _ _ _ hnone] at hlook
    cases hlook
  · obtain ⟨m, hm, hcase⟩ := notice?_staleAll (w.setSystem hostSilent false) false _ hn1
    rw [if_pos (mem_livePoints hn1)] at hcase
    rw [hm] at hlook
    cases hlook
    rw [hcase]

theorem notice?_hostReturn {w : Work} {p : Pt} {n : Notice} (hn : (w.setSystem hostSilent false).st.notice? p = some n) :
    Holds (w.hostReturn.st.notice? p) fun m => m = { n with stale := false, rev := m.rev } := by
  obtain ⟨m, hm, hcase⟩ := notice?_staleAll (w.setSystem hostSilent false) false _ hn
  exact ⟨m, hm, by rwa [if_pos (mem_livePoints hn)] at hcase⟩

/-- R26, R68, R172: HOST SILENT at the host's return in RUN. -/
theorem hostSilent_hostReturn {w : Work} (hm : w.st.ctl.mode = .run) (ha : w.st.active hostSilent = true) {n : Notice}
    (hn : w.st.notice? hostSilent = some n) :
    (n.phase = .alert → Holds (w.hostReturn.st.notice? hostSilent) fun m => m.phase = .fleeting) ∧
      (n.phase = .standing → w.hostReturn.st.notice? hostSilent = none ∧ w.hostReturn.st.flagged .retired = true) := by
  have hset := setSystem_clear (w := w) rfl hm ha
  refine ⟨fun h => ?_, fun h => ?_⟩
  · have hphase := clearSystem_alert (w := w.putCond hostSilent false) hn h
    rw [← hset, ← phase?_staleAll] at hphase
    obtain ⟨m, hm, hp⟩ := Option.map_eq_some_iff.1 hphase
    exact ⟨m, hm, hp⟩
  · obtain ⟨hnone, hflag⟩ := clearSystem_standing (w := w.putCond hostSilent false) hn h
    rw [← hset] at hnone hflag
    exact ⟨notice?_staleAll_none _ _ _ hnone, flagged_framed (framed_staleAll _ false _) hflag⟩

/-- Settles O19: a restarting transaction is a judgement, which leaves supervision and the tables, and then supervision's move. -/
theorem restartingTransactionHearsTheHost : Obligations.RestartingTransactionHearsTheHost := by
  intro s bits stray tr hok hs hcsn htr hlen mosi j running
  have hne : wholeBytes bits ≠ [] := by rw [Ne, wholeBytes_eq_nil]; omega
  have hexec : exec (.transactionEnd bits stray) s = .next (State.endTransaction (s.withLink _) j) :=
    exec_transactionEnd_judged hs hcsn htr hne
  obtain ⟨a, ha⟩ : ∃ a, s.withLink (s.link.risen (tr.consumes (wholeBytes bits).length)) = a := ⟨_, rfl⟩
  have halink : a.link.sup = s.link.sup ∧ a.link.supTimer = s.link.supTimer ∧ a.link.supSetting = s.link.supSetting := by
    rw [← ha]
    show (Link.risen _ _).sup = _ ∧ (Link.risen _ _).supTimer = _ ∧ (Link.risen _ _).supSetting = _
    rw [risen_eq]
    cases tr.consumes (wholeBytes bits).length <;> exact ⟨rfl, rfl, rfl⟩
  have hmode : a.ctl.mode = s.ctl.mode := by rw [← ha]; rfl
  have hnt : a.nt = s.nt := by rw [← ha]; rfl
  have hpt : a.pt = s.pt := by rw [← ha]; rfl
  rw [ha] at hexec
  rw [hexec]
  clear_value j
  obtain ⟨asup, atimer, asetting⟩ := halink
  obtain ⟨jsup, jtimer⟩ := judged_supervision a.link j
  obtain ⟨-, -, -, -, -, jsetting, -⟩ := judged_keeps a.link j
  refine ⟨fun hsoft hbad hcrc => ⟨_, rfl, ?_⟩, fun hbad => ⟨_, rfl, ?_⟩⟩
  · have hrestarts : j.restarts = true := by
      cases j <;> first | rfl | contradiction
    let w := a.work.onState fun s => s.withLink (s.link.judged j)
    have hend : a.endTransaction j = settle a w.restartSupervision :=
      (if_neg hsoft).trans (congrArg (settle a) (transaction_restarts a.work hrestarts))
    have hwsup : w.st.link.sup = s.link.sup := jsup.trans asup
    have hsetting : w.st.link.supSetting = s.link.supSetting := jsetting.trans asetting
    refine ⟨fun h => ?off, fun h => ?running, fun h => ?expired⟩
    case off =>
      rw [hend, restartSupervision_off (hwsup.trans h), settle_link, settle_nt, settle_pt]
      exact ⟨hwsup.trans h, jtimer.trans atimer, hnt, hpt⟩
    case running =>
      rw [hend, restartSupervision_running (hwsup.trans h), settle_link, settle_nt, settle_pt]
      exact ⟨rfl, congrArg (fun n => some (Countdown.start n)) hsetting, hnt, hpt⟩
    case expired =>
      have hsame := sameTable_settle a w.restartSupervision
      have hlook (p : Pt) : w.st.notice? p = s.notice? p := by
        show a.notice? p = _
        rw [State.notice?_eq, State.notice?_eq, hnt]
      have hcond (p : Pt) : w.st.active p = s.active p := by
        show a.active p = _
        rw [State.active, State.active, hpt]
      have hwok : w.st.TableOk := hok.congr (congrArg NoticeTable.points hnt) (congrArg NoticeTable.pendSet hnt) (hcond _)
      obtain ⟨hactive, hpend⟩ := hostReturn_keeps w
      rw [restartSupervision_expired (hwsup.trans h)] at hsame hend
      rw [← hend] at hsame
      refine ⟨?_, ?_, ?_, fun p hp => ?_, ?_, ?_, fun p n hp hn => ?_, fun hm hon n hn => ?_⟩
      · rw [hend, settle_link]; rfl
      · rw [hend, settle_link]
        exact congrArg (fun n => some (Countdown.start n)) ((supSetting_hostReturn w).trans hsetting)
      · rw [hsame.active]
        exact (hactive hostSilent).trans (if_pos rfl)
      · rw [hsame.active]
        exact ((hactive p).trans (if_neg (by simpa using hp))).trans (hcond p)
      · rw [hsame.nt]
        exact stale_hostReturn hwok
      · rw [hsame.nt]
        exact hpend.trans (congrArg (·.pendSet) hnt)
      · rw [hsame.notice?]
        exact notice?_hostReturn (((alters_setSystem_clear w hostSilent).notice p hp).trans ((hlook p).trans hn))
      · rw [hsame.notice?, hsame.flagged]
        exact hostSilent_hostReturn (hmode.trans hm) ((hcond _).trans hon) ((hlook _).trans hn)
  · have hfaulty : j.faulty = true := by rcases hbad with h | h <;> (rw [h]; rfl)
    have hsoft : j ≠ .softReset := by rcases hbad with h | h <;> (rw [h]; decide)
    have hend : a.endTransaction j = settle a (a.work.transaction j) := if_neg hsoft
    rw [hend, transaction_faulty _ hfaulty]
    beta_reduce
    rw [settle_link, settle_nt, settle_pt]
    exact ⟨jsup.trans asup, jtimer.trans atimer, hnt, hpt⟩

end Sys2Proof.Machine

/-! # The stages of a request (O22): which payloads a parser accepts, and the order of the refusals -/

namespace Sys2Proof.Machine

/-! ## Which fields a parser accepts -/

theorem isSome_parseFin (n : Nat) (b : Byte) : (parseFin n b).isSome = decide (b.toNat < n) := by
  unfold parseFin
  split <;> simp [*]

theorem byte_eq_iff_toNat (a b : Byte) : a = b ↔ a.toNat = b.toNat := BitVec.toNat_inj.symm

theorem isSome_parseOptFin (n : Nat) (b : Byte) : (parseOptFin n b).isSome = (decide (b.toNat < n) || decide (b.toNat = 0xFF)) := by
  have hb := byte_eq_iff_toNat b 0xFF
  unfold parseOptFin
  split
  · next h => rw [decide_eq_true (show b.toNat = 0xFF from hb.1 h), Bool.or_true]; rfl
  · next h => rw [decide_eq_false (show ¬b.toNat = 0xFF from mt hb.2 h), Bool.or_false, Option.isSome_map, isSome_parseFin]

theorem isSome_parseRange (lo hi : Nat) (b : Byte) : (parseRange lo hi b).isSome = (decide (lo ≤ b.toNat) && decide (b.toNat ≤ hi)) := by
  unfold parseRange
  split <;> simp_all

theorem isSome_parseText (lo hi : Nat) (t : List Byte) :
    (parseText lo hi t).isSome = (decide (lo ≤ t.length) && decide (t.length ≤ hi) && t.all printable) := by
  unfold parseText
  split <;> simp_all

theorem isSome_parseBool (b : Byte) : (parseBool b).isSome = decide (b.toNat ≤ 1) := by
  revert b
  decide +kernel

theorem isSome_pointClass (b : Byte) : (PointClass.ofCode b).isSome = decide (b.toNat ≤ 2) := by
  revert b
  decide +kernel

theorem isSome_sequence (b : Byte) : (Sequence.ofCode b).isSome = decide (b.toNat ≤ 2) := by
  revert b
  decide +kernel

theorem isSome_lineMode (b : Byte) : (LineMode.ofCode b).isSome = decide (b.toNat ≤ 1) := by
  revert b
  decide +kernel

theorem isSome_orientation (b : Byte) : (Orientation.ofCode b).isSome = decide (b.toNat ≤ 1) := by
  revert b
  decide +kernel

theorem isSome_polarity (b : Byte) : (Polarity.ofCode b).isSome = decide (b.toNat ≤ 1) := by
  revert b
  decide +kernel

theorem isSome_parseLimit (b : Byte) :
    (parseLimit b).isSome = (decide (b.toNat = 0) || (decide (3 ≤ b.toNat) && decide (b.toNat ≤ 15))) := by
  have hb := byte_eq_iff_toNat b 0
  unfold parseLimit
  split
  · next h => rw [decide_eq_true (show b.toNat = 0 from hb.1 h)]; rfl
  · next h => rw [decide_eq_false (show ¬b.toNat = 0 from mt hb.2 h), isSome_parseRange]; rfl

/-- The rest of a parser that accepts whatever this step gave. -/
@[simp] theorem any_const {α : Type} (o : Option α) (b : Bool) : (o.any fun _ => b) = (o.isSome && b) := by
  cases o <;> rfl

theorem any_and_left {α : Type} (o : Option α) (b : Bool) (f : α → Bool) : (o.any fun a => b && f a) = (b && o.any f) := by
  cases o <;> cases b <;> simp

theorem isSome_ite_some {α : Type} (b : Bool) (a : α) : (if b = true then some a else none).isSome = b := by
  cases b <;> rfl

/-! ## Which payloads a parser accepts -/

theorem isSome_parseOne {n : Nat} {pl : List Byte} (h : pl.length = 1) :
    (parseOne n pl).isSome = decide ((pl.getD 0 0).toNat < n) := by
  match pl, h with
  | [b], _ => exact isSome_parseFin n b

theorem isSome_parseGroup {pl : List Byte} (h : pl.length = 4) : (parseGroup pl).isSome = argsFit (.writeGroup pl) := by
  match pl, h with
  | [g, l, e, f], _ =>
    rw [Bool.eq_iff_iff]
    simp [parseGroup, argsFit, Option.isSome_bind, isSome_parseFin, isSome_parseRange, isSome_parseBool]
    omega

theorem isSome_parseLine {pl : List Byte} (h : pl.length = 6) : (parseLine pl).isSome = argsFit (.writeLine pl) := by
  match pl, h with
  | [l, b, p, n, f, c], _ =>
    rw [Bool.eq_iff_iff]
    simp [parseLine, argsFit, Option.isSome_bind, isSome_parseFin, isSome_parseOptFin, isSome_polarity, isSome_parseRange,
      isSome_parseLimit]
    omega

theorem isSome_parsePanel {pl : List Byte} (h : pl.length = 7) : (parsePanel pl).isSome = argsFit (.writePanel pl) := by
  match pl, h with
  | [m, o, f, r, s, h, w], _ =>
    rw [Bool.eq_iff_iff]
    simp [parsePanel, argsFit, Option.isSome_bind, isSome_lineMode, isSome_orientation, isSome_parseRange]
    omega

theorem isSome_parseSetOut {pl : List Byte} (h : pl.length = 2) : (parseSetOut pl).isSome = argsFit (.setOutput pl) := by
  match pl, h with
  | [l, v], _ =>
    rw [Bool.eq_iff_iff]
    simp [parseSetOut, argsFit, Option.isSome_bind, isSome_parseFin, isSome_parseBool]
    omega

theorem isSome_parseShelve {pl : List Byte} (h : pl.length = 2) : (parseShelve pl).isSome = argsFit (.shelve pl) := by
  match pl, h with
  | [p, m], _ =>
    rw [Bool.eq_iff_iff]
    simp [parseShelve, argsFit, Option.isSome_bind, isSome_parseFin, isSome_parseRange]
    omega

theorem isSome_parseList {pl : List Byte} (h : pl.length = 2) : (parseList pl).isSome = argsFit (.list pl) := by
  match pl, h with
  | [s, f], _ =>
    show (parseList [s, f]).isSome = decide (f.toNat ≤ 2)
    rw [← isSome_pointClass]
    unfold parseList PointClass.ofCode
    dsimp only
    split
    · rfl
    · split
      · rfl
      · split <;> rfl

theorem isSome_parseLock {pl : List Byte} (h : pl.length = 1) : (parseLock pl).isSome = argsFit (.keyLock pl) := by
  match pl, h with
  | [m], _ =>
    rw [Bool.eq_iff_iff]
    simp [parseLock, argsFit]
    omega

theorem isSome_parseMask {pl : List Byte} (h : pl.length = 1) : (parseMask pl).isSome = true := by
  match pl, h with
  | [m], _ => rfl

/-- R179: the characters of a text. -/
theorem printable_eq : printable = fun c : Byte => decide (0x20 ≤ c.toNat) && decide (c.toNat ≤ 0x7E) := rfl

theorem isSome_parseMessage {pl : List Byte} (h : pl.length ≤ 20) : (parseText 0 20 pl).isSome = argsFit (.setMessage pl) := by
  rw [isSome_parseText, decide_eq_true (Nat.zero_le _), decide_eq_true h]
  rfl

theorem isSome_parseScope {pl : List Byte} (h : pl.length = 2) : (parseScope pl).isSome = argsFit (.acknowledge pl) := by
  match pl, h with
  | [k, t], _ =>
    have ht := byte_eq_iff_toNat t 0
    rw [Bool.eq_iff_iff]
    by_cases h0 : k = 0
    · subst h0
      simp [parseScope, argsFit, isSome_parseFin]
      omega
    · by_cases h1 : k = 1
      · subst h1
        simp [parseScope, argsFit, isSome_parseFin]
        omega
      · by_cases h2 : k = 2
        · subst h2
          by_cases hz : t = 0 <;> simp_all [parseScope, argsFit]
        · have n0 := mt (byte_eq_iff_toNat k 0).2 h0
          have n1 := mt (byte_eq_iff_toNat k 1).2 h1
          have n2 := mt (byte_eq_iff_toNat k 2).2 h2
          simp_all [parseScope, argsFit]

/-- R128: whether a mode's code takes a parameter. -/
def outParamFits (code n : Nat) : Bool :=
  match code with
  | 1 | 2 => decide (1 ≤ n) && decide (n ≤ 4)
  | 4 => decide (n ≤ 15)
  | 0 | 3 | 5 | 6 => decide (n = 0)
  | _ => false

theorem any_paramOk (m : Byte) (n : Nat) : ((OutMode.ofCode m).any fun k => k.paramOk n) = outParamFits m.toNat n := by
  have hcode : m ∈ ([0, 1, 2, 3, 4, 5, 6] : List Byte) ∨ 6 < m.toNat := by
    revert m
    decide +kernel
  have hnone : 6 < m.toNat → OutMode.ofCode m = none := by
    revert m
    decide +kernel
  rcases hcode with h | h
  · simp only [List.mem_cons, List.not_mem_nil, or_false] at h
    rcases h with rfl | rfl | rfl | rfl | rfl | rfl | rfl <;> rfl
  · rw [hnone h]
    unfold outParamFits
    split <;> first | rfl | omega

theorem isSome_parseOut {pl : List Byte} (h : pl.length = 4) : (parseOut pl).isSome = argsFit (.writeOutput pl) := by
  match pl, h with
  | [l, m, p, i], _ =>
    have hline : decide (l.toNat < 4) = decide (l.toNat ≤ 3) := decide_eq_decide.2 (by omega)
    have hparse : (parseOut [l, m, p, i]).isSome =
        (decide (l.toNat < 4) && (decide (i.toNat ≤ 1) && outParamFits m.toNat p.toNat)) := by
      simp [parseOut, Option.isSome_bind, isSome_parseFin, isSome_parseBool, any_and_left, isSome_ite_some, any_paramOk]
    exact hparse.trans ((Bool.and_assoc _ _ _).symm.trans
      (congrArg (fun b => b && decide (i.toNat ≤ 1) && outParamFits m.toNat p.toNat) hline))

theorem isSome_parseField (kind : Byte) (data : List Byte) (h : data.length ≤ 6) :
    (parseField kind data).isSome =
      ((decide (kind.toNat = 0) && decide (data.length = 0)) || (decide (kind.toNat = 1) && decide (data.length = 2)) ||
        (decide (kind.toNat = 2) && decide (1 ≤ data.length) && data.all printable)) := by
  by_cases h0 : kind = 0
  · subst h0
    cases data <;> simp [parseField]
  · by_cases h1 : kind = 1
    · subst h1
      match data with
      | [] | [_] | [_, _] => rfl
      | _ :: _ :: _ :: _ => simp [parseField]
    · by_cases h2 : kind = 2
      · subst h2
        simp [parseField, isSome_parseText, h]
      · have n0 := mt (byte_eq_iff_toNat kind 0).2 h0
        have n1 := mt (byte_eq_iff_toNat kind 1).2 h1
        have n2 := mt (byte_eq_iff_toNat kind 2).2 h2
        simp_all [parseField]

theorem isSome_parseRaise {pl : List Byte} (h : 2 ≤ pl.length ∧ pl.length ≤ 8) : (parseRaise pl).isSome = argsFit (.raise pl) := by
  match pl, h with
  | p :: k :: data, ⟨_, hmax⟩ =>
    rw [Bool.eq_iff_iff]
    simp only [List.length_cons] at hmax
    simp [parseRaise, argsFit, Option.isSome_bind, isSome_parseFin, isSome_parseField k data (by omega), printable_eq]
    omega

theorem isSome_parsePoint {pl : List Byte} (h : lengthFits (.writePoint pl) = true) :
    (parsePoint pl).isSome = argsFit (.writePoint pl) := by
  match pl, h with
  | p :: c :: q :: g :: t :: y :: m :: k :: chars, h =>
    rw [Bool.eq_iff_iff]
    simp [lengthFits] at h
    simp [parsePoint, argsFit, Option.isSome_bind, isSome_parseFin, isSome_parseOptFin, isSome_pointClass, isSome_sequence, isSome_parseRange, isSome_parseText, printable_eq]
    grind

end Sys2Proof.Machine

/-! # The stages of a request (O22): length, mode, arguments, and the answer -/

namespace Sys2Proof.Machine

/-- R180: a verdict after the stages: an answer that is none of their refusals, or an effect that is OK or REFRESHED. -/
def Verdict.Sound : Verdict → Prop
  | .answer r _ => r ≠ .badArgument ∧ r ≠ .badLength ∧ r ≠ .unknownKind
  | .act r _ => r = .ok ∨ r = .refreshed

theorem Verdict.Sound.actOk (w : Work) : (Verdict.act .ok w).Sound := .inl rfl

theorem Verdict.Sound.answerOk (p : List Byte) : (Verdict.answer .ok p).Sound := ⟨by decide, by decide, by decide⟩

theorem Verdict.Sound.refused {r : Result} (h : r ≠ .badArgument ∧ r ≠ .badLength ∧ r ≠ .unknownKind) : (Verdict.refuse r).Sound := h

/-- R180, R181: the verdict of a request's stages. -/
structure Stages (s : State) (i : Instr) (v : Verdict) : Prop where
  length : lengthFits i = false → v = .refuse .badLength
  mode : lengthFits i = true → refusingMode i = some s.ctl.mode → v = .refuse .wrongMode
  args : lengthFits i = true → refusingMode i ≠ some s.ctl.mode → argsFit i = false → v = .refuse .badArgument
  sound : lengthFits i = true → refusingMode i ≠ some s.ctl.mode → argsFit i = true → v.Sound

/-- R180: the argument stage. -/
theorem withArgs_stage {α : Type} {a : Option α} {f : α → Verdict} {b : Bool} (ha : a.isSome = b) (hf : ∀ x, (f x).Sound) :
    (b = false → withArgs a f = .refuse .badArgument) ∧ (b = true → (withArgs a f).Sound) := by
  subst ha
  cases a with
  | none => exact ⟨fun _ => rfl, fun h => by cases h⟩
  | some x => exact ⟨fun h => (by cases h), fun _ => hf x⟩

/-- A request that every mode takes. -/
theorem stages_anyMode {s : State} {i : Instr} {α : Type} {a : Option α} {f : α → Verdict} {b : Bool} (hb : lengthFits i = b)
    (hm : refusingMode i = none) (ha : b = true → a.isSome = argsFit i) (hf : ∀ x, (f x).Sound) :
    Stages s i (lengthThen b (withArgs a f)) := by
  subst hb
  have hnot : refusingMode i ≠ some s.ctl.mode := by rw [hm]; exact nofun
  refine ⟨fun h => by rw [h]; rfl, fun _ h => absurd h hnot, fun h _ hargs => ?_, fun h _ hargs => ?_⟩
  · rw [h]
    exact (withArgs_stage (ha h) hf).1 hargs
  · rw [h]
    exact (withArgs_stage (ha h) hf).2 hargs

/-- A request that one mode takes. -/
theorem stages_oneMode {s : State} {i : Instr} {α : Type} {a : Option α} {f : α → Verdict} {b : Bool} {m : Mode}
    (hb : lengthFits i = b) (hm : ∀ m', refusingMode i = some m' ↔ m' ≠ m) (ha : b = true → a.isSome = argsFit i)
    (hf : ∀ x, (f x).Sound) : Stages s i (lengthThen b (inMode s m (withArgs a f))) := by
  subst hb
  have hin (h : refusingMode i ≠ some s.ctl.mode) : s.ctl.mode = m := not_not.1 fun hne => h ((hm _).2 hne)
  refine ⟨fun h => by rw [h]; rfl, fun h hmode => ?_, fun h hmode hargs => ?_, fun h hmode hargs => ?_⟩
  · rw [h, lengthThen_true, inMode_other _ _ _ ((hm _).1 hmode)]
  · rw [h, lengthThen_true, inMode_same _ _ _ (hin hmode)]
    exact (withArgs_stage (ha h) hf).1 hargs
  · rw [h, lengthThen_true, inMode_same _ _ _ (hin hmode)]
    exact (withArgs_stage (ha h) hf).2 hargs

/-- A request without arguments. -/
theorem stages_plain {s : State} {i : Instr} {b : Bool} {v : Verdict} (hb : lengthFits i = b) (hm : refusingMode i = none)
    (ha : argsFit i = true) (hv : v.Sound) : Stages s i (lengthThen b v) :=
  stages_anyMode (a := some ()) (f := fun _ => v) hb hm (fun _ => ha.symm) fun _ => hv

theorem stages_plain_oneMode {s : State} {i : Instr} {b : Bool} {v : Verdict} {m : Mode} (hb : lengthFits i = b)
    (hm : ∀ m', refusingMode i = some m' ↔ m' ≠ m) (ha : argsFit i = true) (hv : v.Sound) :
    Stages s i (lengthThen b (inMode s m v)) :=
  stages_oneMode (a := some ()) (f := fun _ => v) hb hm (fun _ => ha.symm) fun _ => hv

/-! ## What each request answers after the stages -/

theorem not_config_iff (m : Mode) : some Mode.config = some m ↔ m ≠ .run := by cases m <;> decide

theorem not_run_iff (m : Mode) : some Mode.run = some m ↔ m ≠ .config := by cases m <;> decide

/-- R180: the fields of a payload of one byte, as a parser for one of n things and a bound read them. -/
theorem isSome_parseOne_le {n k : Nat} (hn : n = k + 1) {pl : List Byte} (h : decide (pl.length = 1) = true) :
    (parseOne n pl).isSome = decide ((pl.getD 0 0).toNat ≤ k) := by
  rw [isSome_parseOne (of_decide_eq_true h)]
  exact decide_eq_decide.2 (by omega)

theorem lengthFits_writePoint (pl : List Byte) : lengthFits (.writePoint pl) = pointLengthOk pl := by
  rw [Bool.eq_iff_iff]
  unfold pointLengthOk
  cases hk : pl[7]? with
  | none =>
    have hshort : pl.length ≤ 7 := List.getElem?_eq_none_iff.1 hk
    simp [lengthFits]
    omega
  | some k =>
    have hlong : 7 < pl.length := (List.getElem?_eq_some_iff.1 hk).1
    simp [lengthFits, List.getD, hk]
    omega

theorem stages_writePoint (s : State) (pl : List Byte) : Stages s (.writePoint pl) (writePointVerdict s pl) := by
  refine stages_anyMode (lengthFits_writePoint pl) rfl (fun h => isSome_parsePoint ((lengthFits_writePoint pl).trans h)) fun a => ?_
  split
  · exact .actOk _
  · split
    · exact .refused (by decide)
    · split
      · exact .refused (by decide)
      · exact .actOk _

theorem stages_writeGroup (s : State) (pl : List Byte) : Stages s (.writeGroup pl) (writeGroupVerdict s pl) :=
  stages_anyMode rfl rfl (fun h => isSome_parseGroup (of_decide_eq_true h)) fun _ => .actOk _

theorem stages_writeLine (s : State) (pl : List Byte) : Stages s (.writeLine pl) (writeLineVerdict s pl) := by
  refine stages_oneMode rfl not_run_iff (fun h => isSome_parseLine (of_decide_eq_true h)) fun a => ?_
  split
  · exact .refused (by decide)
  · exact .actOk _

theorem stages_writePanel (s : State) (pl : List Byte) : Stages s (.writePanel pl) (writePanelVerdict s pl) := by
  refine stages_anyMode rfl rfl (fun h => isSome_parsePanel (of_decide_eq_true h)) fun a => ?_
  split
  · exact .refused (by decide)
  · exact .actOk _

theorem stages_raise (s : State) (pl : List Byte) : Stages s (.raise pl) (raiseVerdict s pl) := by
  refine stages_oneMode rfl not_config_iff (fun h => isSome_parseRaise (by simpa using h)) fun a => ?_
  split
  · exact .refused (by decide)
  · split
    · exact .refused (by decide)
    · split
      · exact .refused (by decide)
      · unfold State.raiseResult
        split
        · split
          · exact .inr rfl
          · exact .inl rfl
        · exact .inl rfl

theorem stages_clear (s : State) (pl : List Byte) : Stages s (.clear pl) (clearVerdict s pl) := by
  refine stages_oneMode rfl not_config_iff (isSome_parseOne_le rfl) fun a => ?_
  split
  · exact .refused (by decide)
  · exact .actOk _

theorem stages_acknowledge (s : State) (pl : List Byte) : Stages s (.acknowledge pl) (acknowledgeVerdict s pl) := by
  refine stages_oneMode rfl not_config_iff (fun h => isSome_parseScope (of_decide_eq_true h)) fun a => ?_
  split
  · exact .refused (by decide)
  · exact .actOk _

theorem stages_reset (s : State) (pl : List Byte) : Stages s (.reset pl) (resetVerdict s pl) := by
  refine stages_oneMode rfl not_config_iff (fun h => isSome_parseScope (of_decide_eq_true h)) fun a => ?_
  split
  · exact .refused (by decide)
  · exact .actOk _

theorem stages_retire (s : State) (pl : List Byte) : Stages s (.retire pl) (retireVerdict s pl) := by
  refine stages_oneMode rfl not_config_iff (isSome_parseOne_le rfl) fun a => ?_
  split
  · exact .refused (by decide)
  · exact .actOk _

theorem stages_shelve (s : State) (pl : List Byte) : Stages s (.shelve pl) (shelveVerdict s pl) := by
  refine stages_oneMode rfl not_config_iff (fun h => isSome_parseShelve (of_decide_eq_true h)) fun a => ?_
  unfold shelvePermitted
  split
  · exact .refused (by decide)
  · split
    · exact .refused (by decide)
    · split
      · exact .refused (by decide)
      · exact .actOk _

theorem stages_unshelve (s : State) (pl : List Byte) : Stages s (.unshelve pl) (unshelveVerdict s pl) := by
  refine stages_oneMode rfl not_config_iff (isSome_parseOne_le rfl) fun a => ?_
  split
  · exact .refused (by decide)
  · exact .actOk _

theorem stages_lookup (s : State) (pl : List Byte) : Stages s (.lookup pl) (lookupVerdict s pl) := by
  refine stages_anyMode rfl rfl (isSome_parseOne_le rfl) fun a => ?_
  split
  · exact .answerOk _
  · exact ⟨by decide, by decide, by decide⟩

theorem stages_start (s : State) (pl : List Byte) : Stages s (.start pl) (startVerdict s pl) := by
  refine stages_plain_oneMode rfl not_run_iff rfl ?_
  split
  · exact ⟨by decide, by decide, by decide⟩
  · exact .actOk _

/-- R180: every request row answers by its stages. -/
theorem exec_stages {i : Instr} {k : Byte} {p : List Byte} (hk : kindOf i = some k) (hp : i.payload? = some p) (s : State) :
    ∃ v, exec i s = .next (s.request k p v) ∧ Stages s i v := by
  cases i with
  | csnFall | replyPlacement | supervisionExpiry | lampTestExpiry | stepBoundary | refreshLatch | chirpBurstEnd | secondsTick
  | scrollHoldExpiry | compositionComplete | frameBoundary | powerOn | supplyFall | resetnFall | resetnRise | resetExit
  | oscillatorStop | oscillatorRestart | transactionEnd _ _ | lineRawChange _ _ | lineQualifyExpiry _ | chatterWindowExpiry _
  | chatterRelease _ | shelfEntryExpiry _ | realertExpiry _ | keyRawChange _ _ | keyDebounceExpiry _ | keyRepeatExpiry _
  | unknownKind _ _ => cases hk
  | identify p => cases hk; cases hp; exact ⟨_, rfl, stages_plain rfl rfl rfl (.answerOk _)⟩
  | status p => cases hk; cases hp; exact ⟨_, rfl, stages_plain rfl rfl rfl (.answerOk _)⟩
  | readPanel p => cases hk; cases hp; exact ⟨_, rfl, stages_plain rfl rfl rfl (.answerOk _)⟩
  | readEvents p => cases hk; cases hp; exact ⟨_, rfl, stages_plain rfl rfl rfl (.answerOk _)⟩
  | writePoint p => cases hk; cases hp; exact ⟨_, rfl, stages_writePoint s p⟩
  | readPoint p => cases hk; cases hp; exact ⟨_, rfl, stages_anyMode rfl rfl (isSome_parseOne_le rfl) fun _ => .answerOk _⟩
  | writeGroup p => cases hk; cases hp; exact ⟨_, rfl, stages_writeGroup s p⟩
  | readGroup p => cases hk; cases hp; exact ⟨_, rfl, stages_anyMode rfl rfl (isSome_parseOne_le rfl) fun _ => .answerOk _⟩
  | writeLine p => cases hk; cases hp; exact ⟨_, rfl, stages_writeLine s p⟩
  | readLine p => cases hk; cases hp; exact ⟨_, rfl, stages_anyMode rfl rfl (isSome_parseOne_le rfl) fun _ => .answerOk _⟩
  | writePanel p => cases hk; cases hp; exact ⟨_, rfl, stages_writePanel s p⟩
  | writeOutput p =>
    cases hk; cases hp
    exact ⟨_, rfl, stages_anyMode rfl rfl (fun h => isSome_parseOut (of_decide_eq_true h)) fun _ => .actOk _⟩
  | setOutput p =>
    cases hk; cases hp
    exact ⟨_, rfl, stages_anyMode rfl rfl (fun h => isSome_parseSetOut (of_decide_eq_true h)) fun _ => .actOk _⟩
  | keyLock p =>
    cases hk; cases hp
    exact ⟨_, rfl, stages_anyMode rfl rfl (fun h => isSome_parseLock (of_decide_eq_true h)) fun _ => .actOk _⟩
  | setMessage p =>
    cases hk; cases hp
    exact ⟨_, rfl, stages_anyMode rfl rfl (fun h => isSome_parseMessage (of_decide_eq_true h)) fun _ => .actOk _⟩
  | lampTest p => cases hk; cases hp; exact ⟨_, rfl, stages_plain rfl rfl rfl (.actOk _)⟩
  | raise p => cases hk; cases hp; exact ⟨_, rfl, stages_raise s p⟩
  | clear p => cases hk; cases hp; exact ⟨_, rfl, stages_clear s p⟩
  | acknowledge p => cases hk; cases hp; exact ⟨_, rfl, stages_acknowledge s p⟩
  | reset p => cases hk; cases hp; exact ⟨_, rfl, stages_reset s p⟩
  | silence p => cases hk; cases hp; exact ⟨_, rfl, stages_plain_oneMode rfl not_config_iff rfl (.actOk _)⟩
  | retire p => cases hk; cases hp; exact ⟨_, rfl, stages_retire s p⟩
  | shelve p => cases hk; cases hp; exact ⟨_, rfl, stages_shelve s p⟩
  | unshelve p => cases hk; cases hp; exact ⟨_, rfl, stages_unshelve s p⟩
  | lookup p => cases hk; cases hp; exact ⟨_, rfl, stages_lookup s p⟩
  | list p =>
    cases hk; cases hp
    exact ⟨_, rfl, stages_anyMode rfl rfl (fun h => isSome_parseList (of_decide_eq_true h)) fun _ => .answerOk _⟩
  | pending p => cases hk; cases hp; exact ⟨_, rfl, stages_anyMode rfl rfl (isSome_parseOne_le rfl) fun _ => .answerOk _⟩
  | shelf p => cases hk; cases hp; exact ⟨_, rfl, stages_anyMode rfl rfl (isSome_parseOne_le rfl) fun _ => .answerOk _⟩
  | clearEvents p =>
    cases hk; cases hp
    exact ⟨_, rfl, stages_anyMode rfl rfl (fun h => isSome_parseMask (of_decide_eq_true h)) fun _ => .actOk _⟩
  | eventEnable p =>
    cases hk; cases hp
    exact ⟨_, rfl, stages_anyMode rfl rfl (fun h => isSome_parseMask (of_decide_eq_true h)) fun _ => .actOk _⟩
  | start p => cases hk; cases hp; exact ⟨_, rfl, stages_start s p⟩
  | stop p => cases hk; cases hp; exact ⟨_, rfl, stages_plain_oneMode rfl not_config_iff rfl (.actOk _)⟩

/-- R165, R180: what a sound verdict leaves. -/
theorem request_sound {s : State} (hs : s.inService = true) (k : Byte) (p : List Byte) {v : Verdict} (hv : v.Sound) :
    Holds (s.request k p v).link.ran fun r =>
      (r.kind = k ∧ r.request = p ∧ (r.result ≠ .ok → r.result ≠ .refreshed → s.request k p v = s.recordRun r)) ∧
        r.result ≠ .badArgument ∧ r.result ≠ .badLength ∧ r.result ≠ .unknownKind := by
  cases v with
  | answer r reply =>
    rw [request_answer _ _ _ _ _ hs]
    exact ⟨_, rfl, ⟨rfl, rfl, fun _ _ => rfl⟩, hv⟩
  | act r w =>
    rw [request_act _ _ _ _ _ hs]
    refine ⟨_, rfl, ⟨rfl, rfl, fun hok hrefreshed => ?_⟩, ?_⟩
    · rcases hv with h | h
      · exact absurd h hok
      · exact absurd h hrefreshed
    · rcases hv with rfl | rfl <;> exact ⟨nofun, nofun, nofun⟩

theorem request_refuse {s : State} (hs : s.inService = true) (k : Byte) (p : List Byte) (r : Result) :
    s.request k p (.refuse r) = s.replied k p r [] := request_answer _ _ _ _ _ hs

/-- R180: whatever stage it ends at, a request leaves a reply under its kind, and only OK and REFRESHED an effect. -/
theorem request_stages {s : State} (hs : s.inService = true) (k : Byte) (p : List Byte) {i : Instr} {v : Verdict} (hv : Stages s i v) :
    Holds (s.request k p v).link.ran fun r =>
      r.kind = k ∧ r.request = p ∧ (r.result ≠ .ok → r.result ≠ .refreshed → s.request k p v = s.recordRun r) := by
  have refused {r : Result} (h : v = .refuse r) : Holds (s.request k p v).link.ran fun r =>
      r.kind = k ∧ r.request = p ∧ (r.result ≠ .ok → r.result ≠ .refreshed → s.request k p v = s.recordRun r) := by
    rw [h, request_refuse hs]
    exact ⟨_, rfl, rfl, rfl, fun _ _ => rfl⟩
  cases hlen : lengthFits i with
  | false => exact refused (hv.length hlen)
  | true =>
    by_cases hmode : refusingMode i = some s.ctl.mode
    · exact refused (hv.mode hlen hmode)
    · cases hargs : argsFit i with
      | false => exact refused (hv.args hlen hmode hargs)
      | true =>
        obtain ⟨r, hr, hsame, -⟩ := request_sound hs k p (hv.sound hlen hmode hargs)
        exact ⟨r, hr, hsame⟩

/-- Settles O22: each request row is its verdict's run, and its verdict goes by the stages. -/
theorem requestStagesRefuseInOrder : Obligations.RequestStagesRefuseInOrder := by
  intro i k p s hs
  refine ⟨fun hk hp => ?answers, fun hk hp hlen => ?length, fun hk hp hlen hmode => ?mode,
    fun hk hp hlen hmode => ⟨fun hargs => ?args, fun hargs => ?sound⟩, fun h0 h7 hknown => ?unknown⟩
  case unknown =>
    have hkind : isUnknownKind k = true := by
      simp only [isUnknownKind, Bool.and_eq_true, decide_eq_true_eq, Bool.not_eq_true', List.contains_eq_mem, decide_eq_false_iff_not]
      exact ⟨⟨h0, h7⟩, hknown⟩
    show Host.Outcome.next (if isUnknownKind k = true then _ else _) = _
    rw [if_pos hkind, request_refuse hs]
  all_goals
    obtain ⟨v, hexec, hv⟩ := exec_stages hk hp s
    rw [hexec]
  case answers => exact ⟨_, rfl, request_stages hs k p hv⟩
  case length => rw [hv.length hlen, request_refuse hs]
  case mode => rw [hv.mode hlen hmode, request_refuse hs]
  case args => rw [hv.args hlen hmode hargs, request_refuse hs]
  case sound =>
    obtain ⟨r, hr, -, hnot⟩ := request_sound hs k p (hv.sound hlen hmode hargs)
    exact ⟨_, rfl, r, hr, hnot⟩

end Sys2Proof.Machine
